-- ==== Sys2Proof/Word.lean ====
section
/-! DEFINITION. The widths the spec names: a packet byte, a nibble, the 72-bit notation word, and the packet of nine
byte registers (10_state.md R21, 00_scope.md R11). -/

namespace Sys2Proof

/-- One packet field, an unsigned 8-bit value (`BYTE_W = 8`, R8, R21). -/
abbrev Byte := BitVec 8

/-- The meaningful low part of a packet field (`NIB_W = 4`, R8, R22). -/
abbrev Nibble := BitVec 4

/-- The 72-bit word `W` in which the opcode table is written; notation only (R11, R57). -/
abbrev Word72 := BitVec 72

/-- The nine packet byte registers `P[0]` to `P[8]`, positionally fixed, under the spec's names and in its order
(R21, R54). -/
structure Packet where
  rangeByte : Byte
  digit0 : Byte
  digit1 : Byte
  digit2 : Byte
  digit3 : Byte
  functionByte : Byte
  statusByte : Byte
  option1Byte : Byte
  option2Byte : Byte
deriving DecidableEq, Repr, Inhabited

end Sys2Proof
end

