-- ==== Sys2Proof/Config.lean ====
section
/-! DEFINITION. What an implementation fixes (the registry's type, the numerics configuration) and the free values: the
constants without a body that stand for what the spec leaves open (00_scope.md R8). -/

namespace Sys2Proof

/-- An exact decimal number, `coefficient * 10 ^ exponent` (the `multiplier: decimal` of R36; the argument of `fl`,
R183). -/
structure Decimal where
  coefficient : Int
  exponent : Int
deriving DecidableEq, Repr, Inhabited

/-- A RangeDescriptor: `(multiplier, decimal_point_position, unit_label)`; the position has exactly the four values 0..3
by its type (R36). -/
structure RangeDescriptor where
  multiplier : Decimal
  decimalPointPosition : Fin 4
  unitLabel : String
deriving DecidableEq, Repr, Inhabited

/-- A FunctionEntry: `(mode_name, range_table | absent, base_unit)`; the table is an ordered, 0-based sequence
(R35, R37). -/
structure FunctionEntry where
  modeName : String
  rangeTable : Option (List RangeDescriptor)
  baseUnit : String
deriving DecidableEq, Repr, Inhabited

/-- The Function/Range Registry: 16 locations, one per function code, each an entry or `unregistered` (`none`)
(R38). -/
abbrev Registry := Vector (Option FunctionEntry) 16

/-- A number of the floating-point format `FL`, as its bits: 64 for binary64 (R33, R183). -/
abbrev FlNumber := BitVec 64

/-- The numerics configuration (R183, U5). `binary64` is the format the spec takes: IEEE 754 binary64, round to nearest,
ties to even. `other` is any other choice of the three: its conversion and product are free values. -/
inductive FloatFormat where
  | binary64
  | other
deriving DecidableEq, Repr, Inhabited

/-- The open contents of the registry (`REGISTRY`, R39, D7): nothing is known of it. The registry of the machine is this
one with the pinned facts written over it (`Machine.pinRegistry`). -/
opaque Config.registryContents : Registry

/-- By how many bits the width `LEN_W` of the length input exceeds 4, the least it may be: `LEN_W` is open (R8, R24, D20).
The width is `Machine.lenWidth`. -/
opaque Config.lenWidthAboveFour : Nat

/-- What `LEN` holds of a count that `LEN_W` bits cannot: not stated (log entry 20). `Machine.overlongCount` keeps it within
the width and away from 9. -/
opaque Config.overlongCount : Nat → Nat

/-- What the nine packet registers hold after an input that is not 9 bytes was presented: unspecified (R24, U11). One
value for each number of the model's counter. -/
opaque Config.unspecifiedPacket : Nat → Packet

/-- The bits of `M.value` while `M.value_present = 0`: unspecified (R33, U12). -/
opaque Config.unspecifiedValue : Nat → FlNumber

/-- The bits of `M.dv_N` while `M.dv_present = 0`: unspecified (R33, U12). -/
opaque Config.unspecifiedDvN : Nat → BitVec 16

/-- The bits of `M.dv_p` while `M.dv_present = 0`: unspecified (R33, U12). -/
opaque Config.unspecifiedDvP : Nat → BitVec 2

/-- The conversion `fl` of the numerics configuration `other`, a function of the number alone (R183, U5). -/
opaque Config.otherFl : Rat → FlNumber

/-- The product `*fl` of the numerics configuration `other` (R183, U5). -/
opaque Config.otherMul : FlNumber → FlNumber → FlNumber

/-- The sign and payload bits of the NaN that a binary64 product without a numeric result gives: the spec names no
image. -/
opaque Config.nanPayload : FlNumber → FlNumber → FlNumber

/-- The number format in which the delimited-field adapter renders `value`: not stated (R214, N13). -/
opaque Config.valueText : FlNumber → String

/-- The text of the human-readable adapter's battery warning: not stated (R215, N13). -/
opaque Config.batteryWarning : String

end Sys2Proof
end

