-- ==== Sys2Proof/Syntax.lean ====
section
/-! DEFINITION. The syntax of the block's instruction, the packet of format P9 (30_encoding.md): its fields, the ten
flags, and one constructor for each of the 17 rows of the opcode table. -/

namespace Sys2Proof

/-- The ten flag names (R26). -/
inductive FlagName where
  | JUDGE | SIGN | BATT | OL
  | HOLD | MAX | MIN
  | DC | AC | AUTO
deriving DecidableEq, Repr, Inhabited

/-- The flag set `F`: ten named booleans, `true` exactly when the flag's bit is 1 (R26, R27). -/
structure Flags where
  JUDGE : Bool
  SIGN : Bool
  BATT : Bool
  OL : Bool
  HOLD : Bool
  MAX : Bool
  MIN : Bool
  DC : Bool
  AC : Bool
  AUTO : Bool
deriving DecidableEq, Repr, Inhabited

/-- The meaningful fields of a P9 packet beside its opcode: the range index, the four digit nibbles, most significant
first, and the ten modifiers (R71, R73, R75). -/
structure Fields where
  r : Nibble
  d0 : Nibble
  d1 : Nibble
  d2 : Nibble
  d3 : Nibble
  flags : Flags
deriving DecidableEq, Repr, Inhabited

/-- The instructions: one constructor for each row of spec/opcode_table.json, in its order (R80). -/
inductive Instr where
  /-- `FN0`: function code 0x0, a parameter row (R138). -/
  | fn0 (p : Fields)
  /-- `FN1`: function code 0x1, a parameter row (R138). -/
  | fn1 (p : Fields)
  /-- `FREQ`: function code 0x2 with JUDGE clear (R134). -/
  | freq (p : Fields)
  /-- `DUTY`: function code 0x2 with JUDGE set (R135). -/
  | duty (p : Fields)
  /-- `FN3`: function code 0x3, a parameter row (R138). -/
  | fn3 (p : Fields)
  /-- `TEMP`: function code 0x4 (R136). -/
  | temp (p : Fields)
  /-- `FN5`: function code 0x5, a parameter row (R138). -/
  | fn5 (p : Fields)
  /-- `FN6`: function code 0x6, a parameter row (R138). -/
  | fn6 (p : Fields)
  /-- `FN7`: function code 0x7, a parameter row (R138). -/
  | fn7 (p : Fields)
  /-- `FN8`: function code 0x8, a parameter row (R138). -/
  | fn8 (p : Fields)
  /-- `FN9`: function code 0x9, a parameter row (R138). -/
  | fn9 (p : Fields)
  /-- `UNREG`: function code 0xA (R137). -/
  | unreg (p : Fields)
  /-- `VOLT`: function code 0xB (R133). -/
  | volt (p : Fields)
  /-- `FNC`: function code 0xC, a parameter row (R138). -/
  | fnc (p : Fields)
  /-- `FND`: function code 0xD, a parameter row (R138). -/
  | fnd (p : Fields)
  /-- `FNE`: function code 0xE, a parameter row (R138). -/
  | fne (p : Fields)
  /-- `FNF`: function code 0xF, a parameter row (R138). -/
  | fnf (p : Fields)
deriving DecidableEq, Repr

end Sys2Proof
end

