-- ==== Sys2Proof/Machine/Record.lean ====
section
/-! DEFINITION. The block's data types: the Measurement record (10_state.md R29), the error kinds (60_exceptions.md R230),
and the values that live inside one DECODE (R28). -/

namespace Sys2Proof.Machine

/-- `current: "AC"|"DC"|absent`; `absent` is `none` (R29, R32). -/
inductive CurrentType where
  | DC
  | AC
deriving DecidableEq, Repr, Inhabited

/-- `peak: "max"|"min"|absent`; `absent` is `none` (R29, R32). -/
inductive Peak where
  | max
  | min
deriving DecidableEq, Repr, Inhabited

/-- `range_mode: "auto"|"manual"` (R29). -/
inductive RangeMode where
  | manual
  | auto
deriving DecidableEq, Repr, Inhabited

/-- `operation: "normal"|"overload"` (R29). -/
inductive Operation where
  | normal
  | overload
deriving DecidableEq, Repr, Inhabited

/-- `dec(N, p)`: the exact decimal `N / 10^p` shown with exactly `p` fractional digits (R178). -/
structure DisplayValue where
  N : Int
  p : Fin 4
deriving DecidableEq, Repr, Inhabited

/-- The Measurement record: eleven fields, all of them present in every record; `absent` is `none`, a value of its own
(R29, R31, R32). -/
structure Measurement where
  value : Option FlNumber
  unit : String
  displayValue : Option DisplayValue
  displayUnit : String
  mode : String
  current : Option CurrentType
  peak : Option Peak
  hold : Bool
  rangeMode : RangeMode
  operation : Operation
  batteryLow : Bool
deriving DecidableEq, Repr, Inhabited

/-- The error kinds that a caller can see (R230); `TemplateMismatch` is not among them (R232). -/
inductive ErrorKind where
  /-- Step 0: the input is not exactly 9 bytes (R231). -/
  | FramingError
  /-- Step 1: a fixed-zero bit is 1 (R233). -/
  | InvalidStatusBits
  /-- Step 2: the function code is not registered (R234). -/
  | UnknownFunction
  /-- Step 3: the range index is not in the entry's table (R235). -/
  | UnknownRange
  /-- Step 5: AC and DC are both set (R236). -/
  | ConflictingCurrentType
  /-- Step 3: the entry has no range table (R237). -/
  | UnsupportedMode
deriving DecidableEq, Repr, Inhabited

/-- The working strings and descriptor that step 4 may replace (R28, R150). -/
structure Working where
  mode : String
  unit : String
  rd : RangeDescriptor
deriving DecidableEq, Repr, Inhabited

/-- What steps 5 to 7 select (R28). -/
structure Selected where
  current : Option CurrentType
  operation : Operation
  rangeMode : RangeMode
deriving DecidableEq, Repr, Inhabited

/-- The two numbers of step 9, which step 10 may mask (R28, R186). -/
structure Numbers where
  displayValue : Option DisplayValue
  value : Option FlNumber
deriving DecidableEq, Repr, Inhabited

/-- Where a DECODE stands and the values it carries there (R25, R28): `idle` outside a DECODE, else the step about to
run with what the earlier steps produced. DEDUCED, safe (log entry 6). -/
inductive Stage where
  /-- Outside a DECODE: no flag and no intermediate value exists (R27, R43). -/
  | idle
  /-- `S = 0`. -/
  | framing
  /-- `S = 1`. -/
  | status
  /-- `S = 2`, with `F`. -/
  | function (F : Flags)
  /-- `S = 3`, with the entry `e`, whose `mode_name` and `base_unit` are the working mode and unit. -/
  | range (F : Flags) (e : FunctionEntry)
  /-- `S = 4`, with the working mode, unit and descriptor. -/
  | override (F : Flags) (e : FunctionEntry) (w : Working)
  /-- `S = 5`. -/
  | current (F : Flags) (e : FunctionEntry) (w : Working)
  /-- `S = 6`, with `current`. -/
  | operation (F : Flags) (e : FunctionEntry) (w : Working) (c : Option CurrentType)
  /-- `S = 7`, with `operation`. -/
  | rangeMode (F : Flags) (e : FunctionEntry) (w : Working) (c : Option CurrentType) (o : Operation)
  /-- `S = 8`, with `range_mode`. -/
  | digits (F : Flags) (e : FunctionEntry) (w : Working) (x : Selected)
  /-- `S = 9`, with the display integer `N`. -/
  | scale (F : Flags) (e : FunctionEntry) (w : Working) (x : Selected) (N : Int)
  /-- `S = 10`, with the two numbers. -/
  | mask (F : Flags) (e : FunctionEntry) (w : Working) (x : Selected) (N : Int) (n : Numbers)
  /-- `S = 11`, with the numbers after the mask. -/
  | emit (F : Flags) (e : FunctionEntry) (w : Working) (x : Selected) (N : Int) (n : Numbers)
deriving DecidableEq, Repr, Inhabited

end Sys2Proof.Machine
end

