-- ==== Sys2Proof/Machine/Operands.lean ====
section
/-! DEFINITION. Operand forms of a packet: nibbles, the packet space, the order of the bytes in the notation word `W`, and
the fields of format P9 (30_encoding.md R71). -/

namespace Sys2Proof.Machine

/-- `lo4(v) = v[3:0]`; bit 0 is the least significant bit (R9, R22). -/
def lo4 (v : Byte) : Nibble := v.extractLsb' 0 4

/-- A byte whose low nibble is `n` and whose high nibble is 0 (R91). -/
def byteOfNibble (n : Nibble) : Byte := n.zeroExtend 8

/-- The nibble with bits 3, 2, 1, 0 as given. -/
def nibbleOfBits (b3 b2 b1 b0 : Bool) : Nibble :=
  BitVec.ofBool b3 ++ BitVec.ofBool b2 ++ BitVec.ofBool b1 ++ BitVec.ofBool b0

/-- The packet that nine presented bytes are, byte 0 first; an input of any other length is no packet (R24, R54,
R58). -/
def packetOf (bytes : List Byte) : Option Packet :=
  match bytes with
  | [b0, b1, b2, b3, b4, b5, b6, b7, b8] => some ⟨b0, b1, b2, b3, b4, b5, b6, b7, b8⟩
  | _ => none

/-- The nine bytes of a packet in arrival order (R10, R54). -/
def packetBytes (P : Packet) : List Byte :=
  [P.rangeByte, P.digit0, P.digit1, P.digit2, P.digit3, P.functionByte, P.statusByte, P.option1Byte, P.option2Byte]

/-- `P[k]`, the packet space: nine cells, addressed by the byte index (R21, R50). -/
def packetByte (P : Packet) (k : Fin 9) : Byte :=
  match k with
  | 0 => P.rangeByte
  | 1 => P.digit0
  | 2 => P.digit1
  | 3 => P.digit2
  | 4 => P.digit3
  | 5 => P.functionByte
  | 6 => P.statusByte
  | 7 => P.option1Byte
  | 8 => P.option2Byte

/-- The packet with every high nibble cleared: the 36 meaningful bits (R77). -/
def meaningfulPart (P : Packet) : Packet :=
  ⟨byteOfNibble (lo4 P.rangeByte), byteOfNibble (lo4 P.digit0), byteOfNibble (lo4 P.digit1),
    byteOfNibble (lo4 P.digit2), byteOfNibble (lo4 P.digit3), byteOfNibble (lo4 P.functionByte),
    byteOfNibble (lo4 P.statusByte), byteOfNibble (lo4 P.option1Byte), byteOfNibble (lo4 P.option2Byte)⟩

/-- The packet of a word `W`: byte `k` is `W[71-8k : 64-8k]`, byte 0 the most significant (R11). -/
def packetOfWord (W : Word72) : Packet :=
  ⟨W.extractLsb' 64 8, W.extractLsb' 56 8, W.extractLsb' 48 8, W.extractLsb' 40 8, W.extractLsb' 32 8,
    W.extractLsb' 24 8, W.extractLsb' 16 8, W.extractLsb' 8 8, W.extractLsb' 0 8⟩

/-- `W = P0 ‖ P1 ‖ … ‖ P8` (R11). -/
def wordOfPacket (P : Packet) : Word72 :=
  P.rangeByte ++ P.digit0 ++ P.digit1 ++ P.digit2 ++ P.digit3 ++ P.functionByte ++ P.statusByte ++ P.option1Byte ++
    P.option2Byte

/-- The sub-opcode `r = lo4(P[0])` (R73). -/
def rangeIndex (P : Packet) : Nibble := lo4 P.rangeByte

/-- The opcode `c = lo4(P[5])` (R72). -/
def functionCode (P : Packet) : Nibble := lo4 P.functionByte

/-- The fields of a packet whose flags step 1 has decoded (R71, R170). -/
def fieldsOf (P : Packet) (F : Flags) : Fields :=
  { r := rangeIndex P, d0 := lo4 P.digit0, d1 := lo4 P.digit1, d2 := lo4 P.digit2, d3 := lo4 P.digit3, flags := F }

end Sys2Proof.Machine
end

