-- ==== Sys2Proof/Machine/Flags.lean ====
section
/-! DEFINITION. The Bit-Flag Decoder, the template memory and step 1 of the Packet Parser (40_bitflag_decoder.md). -/

namespace Sys2Proof.Machine

/-- A template slot: a flag name or a literal 0 or 1 (R100). -/
inductive Slot where
  | name (n : FlagName)
  | literal (b : Bool)
deriving DecidableEq, Repr

/-- The flag a slot names, if it names one. -/
def slotName (s : Slot) : Option FlagName :=
  match s with
  | .name n => some n
  | .literal _ => none

/-- A template: exactly four slots, written most significant first; its type refuses a template that names one flag in
two slots (R100, R101, R111, U16). -/
structure Template where
  slot0 : Slot
  slot1 : Slot
  slot2 : Slot
  slot3 : Slot
  distinct : ([slot0, slot1, slot2, slot3].filterMap slotName).Nodup := by decide
deriving DecidableEq

/-- Slot `j` of a template, as written: the template space of one template (R50). -/
def templateSlot (T : Template) (j : Fin 4) : Slot :=
  match j with
  | 0 => T.slot0
  | 1 => T.slot1
  | 2 => T.slot2
  | 3 => T.slot3

/-- `TPL.STATUS = [JUDGE, SIGN, BATT, OL]` (R40, R105). -/
def templateStatus : Template :=
  { slot0 := .name .JUDGE, slot1 := .name .SIGN, slot2 := .name .BATT, slot3 := .name .OL }

/-- `TPL.OPT1 = [HOLD, MAX, MIN, 0]` (R40, R106). -/
def templateOpt1 : Template :=
  { slot0 := .name .HOLD, slot1 := .name .MAX, slot2 := .name .MIN, slot3 := .literal false }

/-- `TPL.OPT2 = [DC, AC, AUTO, 0]` (R40, R107). -/
def templateOpt2 : Template :=
  { slot0 := .name .DC, slot1 := .name .AC, slot2 := .name .AUTO, slot3 := .literal false }

/-- The Bit-Flag Decoder's own error; it never reaches the caller (R109, R232). -/
inductive BfdError where
  | templateMismatch
deriving DecidableEq, Repr

/-- A mapping from flag names to booleans, the result of `BFD` (R100). -/
abbrev FlagMap := List (FlagName × Bool)

/-- One slot against its bit: a literal must equal the bit and records nothing, a name records the bit whatever its
polarity (R102, R103). -/
def slotDecode (s : Slot) (bit : Bool) : Except BfdError FlagMap :=
  match s with
  | .literal b => if bit = b then .ok [] else .error .templateMismatch
  | .name n => .ok [(n, bit)]

/-- `BFD(v, T)`: bit `i` goes with slot `T[3 - i]`; `v[7:4]` is read by nothing (R100, R101, R104). -/
def bfd (v : Byte) (T : Template) : Except BfdError FlagMap := do
  let m0 ← slotDecode T.slot3 (v.getLsbD 0)
  let m1 ← slotDecode T.slot2 (v.getLsbD 1)
  let m2 ← slotDecode T.slot1 (v.getLsbD 2)
  let m3 ← slotDecode T.slot0 (v.getLsbD 3)
  return m0 ++ m1 ++ m2 ++ m3

/-- What a mapping records under a name. Step 1 reads only names that its union holds (`stepOne_eq`), so the value for a
name it lacks is never used. -/
def flagValue (m : FlagMap) (n : FlagName) : Bool := (m.lookup n).getD false

/-- The flag set that a mapping of the ten names is (R26). -/
def flagsOfMap (m : FlagMap) : Flags :=
  { JUDGE := flagValue m .JUDGE, SIGN := flagValue m .SIGN, BATT := flagValue m .BATT, OL := flagValue m .OL,
    HOLD := flagValue m .HOLD, MAX := flagValue m .MAX, MIN := flagValue m .MIN,
    DC := flagValue m .DC, AC := flagValue m .AC, AUTO := flagValue m .AUTO }

/-- The value of a named flag in a flag set. -/
def flagOf (F : Flags) (n : FlagName) : Bool :=
  match n with
  | .JUDGE => F.JUDGE
  | .SIGN => F.SIGN
  | .BATT => F.BATT
  | .OL => F.OL
  | .HOLD => F.HOLD
  | .MAX => F.MAX
  | .MIN => F.MIN
  | .DC => F.DC
  | .AC => F.AC
  | .AUTO => F.AUTO

/-- Step 1: the union of the three mappings; any `TemplateMismatch` is surfaced as `InvalidStatusBits` (R108, R109,
R110). -/
def stepOne (P : Packet) : Except ErrorKind Flags :=
  match bfd P.statusByte templateStatus, bfd P.option1Byte templateOpt1, bfd P.option2Byte templateOpt2 with
  | .ok s, .ok o1, .ok o2 => .ok (flagsOfMap (s ++ o1 ++ o2))
  | _, _, _ => .error .InvalidStatusBits

/-- The low nibble of a `status_byte` with these flags (R71). -/
def statusNibble (F : Flags) : Nibble := nibbleOfBits F.JUDGE F.SIGN F.BATT F.OL

/-- The low nibble of an `option1_byte` with these flags and its fixed-zero bit 0 (R71). -/
def option1Nibble (F : Flags) : Nibble := nibbleOfBits F.HOLD F.MAX F.MIN false

/-- The low nibble of an `option2_byte` with these flags and its fixed-zero bit 0 (R71). -/
def option2Nibble (F : Flags) : Nibble := nibbleOfBits F.DC F.AC F.AUTO false

end Sys2Proof.Machine
end

