-- ==== Sys2Proof/WellFormed.lean ====
section
/-! DEFINITION. Which instructions stand for a packet. Every field takes all its values (R71, R78); the one check is the
split of function code 0x2 on JUDGE (R81). -/

namespace Sys2Proof

/-- `FREQ` has JUDGE clear and `DUTY` has it set, since the rows' encodings fix that bit (R81, R134, R135); every other
row takes every value of every field. -/
def Instr.wellFormed (i : Instr) : Bool :=
  match i with
  | .fn0 _ => true
  | .fn1 _ => true
  | .freq p => !p.flags.JUDGE
  | .duty p => p.flags.JUDGE
  | .fn3 _ => true
  | .temp _ => true
  | .fn5 _ => true
  | .fn6 _ => true
  | .fn7 _ => true
  | .fn8 _ => true
  | .fn9 _ => true
  | .unreg _ => true
  | .volt _ => true
  | .fnc _ => true
  | .fnd _ => true
  | .fne _ => true
  | .fnf _ => true

end Sys2Proof
end

