-- ==== Sys2Proof/Decode.lean ====
section
/-! DEFINITION. The decoder and the encoder of format P9 (30_encoding.md), the opcode table's rows, and the opcode table's
numbering of an instruction's bits. -/

namespace Sys2Proof

open Machine

/-- The row a function code and its fields belong to; code 0x2 splits on JUDGE (R80, R81). -/
def instrOf (c : Nibble) (p : Fields) : Instr :=
  match c.toNat with
  | 0x0 => .fn0 p
  | 0x1 => .fn1 p
  | 0x2 => if p.flags.JUDGE then .duty p else .freq p
  | 0x3 => .fn3 p
  | 0x4 => .temp p
  | 0x5 => .fn5 p
  | 0x6 => .fn6 p
  | 0x7 => .fn7 p
  | 0x8 => .fn8 p
  | 0x9 => .fn9 p
  | 0xA => .unreg p
  | 0xB => .volt p
  | 0xC => .fnc p
  | 0xD => .fnd p
  | 0xE => .fne p
  | _ => .fnf p -- 0xF, the one nibble left

/-- The function code of a row (R80). -/
def codeOf (i : Instr) : Nibble :=
  match i with
  | .fn0 _ => 0x0
  | .fn1 _ => 0x1
  | .freq _ => 0x2
  | .duty _ => 0x2
  | .fn3 _ => 0x3
  | .temp _ => 0x4
  | .fn5 _ => 0x5
  | .fn6 _ => 0x6
  | .fn7 _ => 0x7
  | .fn8 _ => 0x8
  | .fn9 _ => 0x9
  | .unreg _ => 0xA
  | .volt _ => 0xB
  | .fnc _ => 0xC
  | .fnd _ => 0xD
  | .fne _ => 0xE
  | .fnf _ => 0xF

/-- The fields of an instruction. -/
def fieldsIn (i : Instr) : Fields :=
  match i with
  | .fn0 p => p
  | .fn1 p => p
  | .freq p => p
  | .duty p => p
  | .fn3 p => p
  | .temp p => p
  | .fn5 p => p
  | .fn6 p => p
  | .fn7 p => p
  | .fn8 p => p
  | .fn9 p => p
  | .unreg p => p
  | .volt p => p
  | .fnc p => p
  | .fnd p => p
  | .fne p => p
  | .fnf p => p

/-- The row's mnemonic in the opcode table (R80). -/
def mnemonicOf (i : Instr) : String :=
  match i with
  | .fn0 _ => "FN0"
  | .fn1 _ => "FN1"
  | .freq _ => "FREQ"
  | .duty _ => "DUTY"
  | .fn3 _ => "FN3"
  | .temp _ => "TEMP"
  | .fn5 _ => "FN5"
  | .fn6 _ => "FN6"
  | .fn7 _ => "FN7"
  | .fn8 _ => "FN8"
  | .fn9 _ => "FN9"
  | .unreg _ => "UNREG"
  | .volt _ => "VOLT"
  | .fnc _ => "FNC"
  | .fnd _ => "FND"
  | .fne _ => "FNE"
  | .fnf _ => "FNF"

/-- The instruction of a packet: the fixed-zero bits first, then the function nibble (R79, R92). -/
def decodePacket (P : Packet) : Except ErrorKind Instr :=
  match stepOne P with
  | .ok F => .ok (instrOf (functionCode P) (fieldsOf P F))
  | .error k => .error k

/-- The decoder, total on any bytes: length first, then the packet. It rejects by the names of steps 0 and 1
(R82, R92, R201). -/
def decode (bytes : List Byte) : Except ErrorKind Instr :=
  match packetOf bytes with
  | some P => decodePacket P
  | none => .error .FramingError

/-- The packet of an instruction: its row's code, its fields, fixed-zero bits 0 and the nine high nibbles 0 (R71,
R91). -/
def encodePacket (i : Instr) : Packet :=
  let p := fieldsIn i
  { rangeByte := byteOfNibble p.r
    digit0 := byteOfNibble p.d0
    digit1 := byteOfNibble p.d1
    digit2 := byteOfNibble p.d2
    digit3 := byteOfNibble p.d3
    functionByte := byteOfNibble (codeOf i)
    statusByte := byteOfNibble (statusNibble p.flags)
    option1Byte := byteOfNibble (option1Nibble p.flags)
    option2Byte := byteOfNibble (option2Nibble p.flags) }

/-- The bytes of an instruction in arrival order. -/
def encode (i : Instr) : List Byte := packetBytes (encodePacket i)

/-- One row of the opcode table: a word `W` belongs to it when `W AND mask = bits` (R79). -/
structure OpcodeRow where
  mnemonic : String
  mask : Word72
  bits : Word72
deriving DecidableEq, Repr

/-- The mask of a row selected by the function code alone (R79). -/
def maskByCode : Word72 := 0x00000000000F000101#72

/-- The mask of a row that also tests JUDGE (R79). -/
def maskByCodeAndJudge : Word72 := 0x00000000000F080101#72

/-- The rows of spec/opcode_table.json, in its order: mnemonic, mask and match. -/
def opcodeTable : List OpcodeRow :=
  [⟨"FN0", maskByCode, 0x000000000000000000#72⟩,
   ⟨"FN1", maskByCode, 0x000000000001000000#72⟩,
   ⟨"FREQ", maskByCodeAndJudge, 0x000000000002000000#72⟩,
   ⟨"DUTY", maskByCodeAndJudge, 0x000000000002080000#72⟩,
   ⟨"FN3", maskByCode, 0x000000000003000000#72⟩,
   ⟨"TEMP", maskByCode, 0x000000000004000000#72⟩,
   ⟨"FN5", maskByCode, 0x000000000005000000#72⟩,
   ⟨"FN6", maskByCode, 0x000000000006000000#72⟩,
   ⟨"FN7", maskByCode, 0x000000000007000000#72⟩,
   ⟨"FN8", maskByCode, 0x000000000008000000#72⟩,
   ⟨"FN9", maskByCode, 0x000000000009000000#72⟩,
   ⟨"UNREG", maskByCode, 0x00000000000A000000#72⟩,
   ⟨"VOLT", maskByCode, 0x00000000000B000000#72⟩,
   ⟨"FNC", maskByCode, 0x00000000000C000000#72⟩,
   ⟨"FND", maskByCode, 0x00000000000D000000#72⟩,
   ⟨"FNE", maskByCode, 0x00000000000E000000#72⟩,
   ⟨"FNF", maskByCode, 0x00000000000F000000#72⟩]

/-- Whether a word belongs to a row (R79). -/
def rowMatches (row : OpcodeRow) (W : Word72) : Bool := W &&& row.mask == row.bits

/-- The bytes of an instruction whose bits are `w`, numbered as the opcode table numbers them: the one word `W`, bit 0
the least significant bit of byte 8 and byte 0 at bits 71..64 (R11). DEDUCED, safe (log entry 8).
Bits at and above `nbits` are 0; more than 72 bits are no packet and come out as a longer byte list. -/
def tableBytes (nbits w : Nat) : List Byte :=
  let v := w % 2 ^ nbits
  if nbits ≤ 72 then packetBytes (packetOfWord (BitVec.ofNat 72 v))
  else (List.range ((nbits + 7) / 8)).reverse.map fun k => BitVec.ofNat 8 (v / 2 ^ (8 * k))

/-- The instruction the decoder reads from a word of the opcode table's numbering; `none` where it refuses. -/
def decodeTableWord (nbits w : Nat) : Option Instr :=
  match decode (tableBytes nbits w) with
  | .ok i => some i
  | .error _ => none

end Sys2Proof
end

