-- ==== Sys2Proof/Machine/Numeric.lean ====
section
/-! DEFINITION. The fixed-point digit-to-numeric converter, steps 8 to 10, and the numerics configuration with binary64
written out (43_numeric_converter.md). -/

namespace Sys2Proof.Machine

/-- The unsigned display integer `U`; nibbles 10..15 count with their value (R171, R172). -/
def displayMagnitude (d0 d1 d2 d3 : Nibble) : Nat :=
  1000 * d0.toNat + 100 * d1.toNat + 10 * d2.toNat + d3.toNat

/-- Step 8: the signed display integer `N`; the sign is applied to the integer (R175, R176). -/
def stepEight (d0 d1 d2 d3 : Nibble) (F : Flags) : Int :=
  if F.SIGN then -(displayMagnitude d0 d1 d2 d3 : Int) else (displayMagnitude d0 d1 d2 d3 : Int)

/-- The exact decimal number that a display value is, `N / 10^p` (R177, R178). -/
def displayDecimal (v : DisplayValue) : Decimal := ⟨v.N, -(v.p.val : Int)⟩

/-- The number that a decimal is: `coefficient * 10 ^ exponent`. -/
def decimalNumber (x : Decimal) : Rat := (x.coefficient : Rat) * (10 : Rat) ^ x.exponent

/-- The image of positive infinity in binary64. -/
def infinityBits : Nat := 0x7FF0000000000000

/-- The exponent of the leading bit of `n / d`, for positive `n` and `d`: the `k` with `2^k <= n/d < 2^(k+1)`. -/
def leadingExponent (n d : Nat) : Int :=
  let k : Int := (Nat.log2 n : Int) - (Nat.log2 d : Int)
  if d * 2 ^ k.toNat ≤ n * 2 ^ (-k).toNat then k else k - 1

/-- `num / den` rounded to the nearest integer, ties to the even one. -/
def roundHalfEven (num den : Nat) : Nat :=
  let q := num / den
  let twice := 2 * (num % den)
  if den < twice ∨ (twice = den ∧ q % 2 = 1) then q + 1 else q

/-- The binary64 image of the positive rational `n / d` rounded to nearest, ties to even: a significand of 53 bits at an
exponent of at least -1074, infinity above the largest finite number (R183). Zero for `n = 0`. -/
def roundMagnitude (n d : Nat) : Nat :=
  if n = 0 then 0
  else
    let e : Int := max (leadingExponent n d - 52) (-1074)
    let q := roundHalfEven (n * 2 ^ (-e).toNat) (d * 2 ^ e.toNat)
    min ((e + 1074).toNat * 2 ^ 52 + q) infinityBits

/-- A binary64 number of the sign and magnitude image given. -/
def signedImage (negative : Bool) (magnitude : Nat) : FlNumber :=
  BitVec.ofNat 64 ((if negative then 2 ^ 63 else 0) + magnitude)

/-- `fl` for binary64: the decimal with one correct rounding; zero is the positive zero (R176, R181, R183). -/
def binary64OfDecimal (x : Decimal) : FlNumber :=
  signedImage (decide (x.coefficient < 0))
    (roundMagnitude (x.coefficient.natAbs * 10 ^ x.exponent.toNat) (10 ^ (-x.exponent).toNat))

/-- The sign bit of a binary64 image. -/
def signBit (a : FlNumber) : Bool := a.getLsbD 63

/-- The biased exponent field of a binary64 image. -/
def exponentField (a : FlNumber) : Nat := (a.extractLsb' 52 11).toNat

/-- The fraction field of a binary64 image. -/
def fractionField (a : FlNumber) : Nat := (a.extractLsb' 0 52).toNat

/-- Whether an image is a NaN. -/
def isNaN (a : FlNumber) : Bool := exponentField a == 0x7FF && fractionField a != 0

/-- Whether an image is an infinity. -/
def isInfinite (a : FlNumber) : Bool := exponentField a == 0x7FF && fractionField a == 0

/-- Whether an image is a zero. -/
def isZero (a : FlNumber) : Bool := exponentField a == 0 && fractionField a == 0

/-- The significand of a finite image, an integer: its magnitude is this times 2 to `unitExponent`. -/
def significand (a : FlNumber) : Nat :=
  if exponentField a = 0 then fractionField a else 2 ^ 52 + fractionField a

/-- The exponent of the unit in the last place of a finite image. -/
def unitExponent (a : FlNumber) : Int := (max (exponentField a) 1 : Nat) - 1075

/-- Whether an image is a finite number. -/
def isFinite (a : FlNumber) : Bool := exponentField a != 0x7FF

/-- The number that a finite image is. -/
def numberOfImage (a : FlNumber) : Rat :=
  (if signBit a then -1 else 1) * (significand a : Rat) * (2 : Rat) ^ unitExponent a

/-- A quiet NaN whose sign and remaining payload are free: the spec names no image for it. PRESUMED, unsafe as
to the quiet bit (log entry 14). -/
def freeNaN (a b : FlNumber) : FlNumber :=
  0x7FF8000000000000#64 ||| (Config.nanPayload a b &&& 0x8007FFFFFFFFFFFF#64)

/-- `*fl` for binary64: the exact product rounded once to nearest, ties to even (R181, R183). -/
def binary64Mul (a b : FlNumber) : FlNumber :=
  let negative := signBit a != signBit b
  if isNaN a || isNaN b || (isInfinite a && isZero b) || (isZero a && isInfinite b) then freeNaN a b
  else if isInfinite a || isInfinite b then signedImage negative infinityBits
  else
    let e := unitExponent a + unitExponent b
    signedImage negative (roundMagnitude (significand a * significand b * 2 ^ e.toNat) (2 ^ (-e).toNat))

/-- The numerics configuration's conversion `fl` (R183). -/
def flOf (fmt : FloatFormat) (x : Decimal) : FlNumber :=
  match fmt with
  | .binary64 => binary64OfDecimal x
  | .other => Config.otherFl (decimalNumber x)

/-- The numerics configuration's product `*fl` (R183). -/
def flMul (fmt : FloatFormat) (a b : FlNumber) : FlNumber :=
  match fmt with
  | .binary64 => binary64Mul a b
  | .other => Config.otherMul a b

/-- `value = fl(N / 10^p) *fl fl(m)` (R181, R182). -/
def scaledValue (fmt : FloatFormat) (v : DisplayValue) (m : Decimal) : FlNumber :=
  flMul fmt (flOf fmt (displayDecimal v)) (flOf fmt m)

/-- Step 9: `display_value = dec(N, p)` and `value`, by the descriptor after step 4 (R177, R181). -/
def stepNine (fmt : FloatFormat) (N : Int) (rd : RangeDescriptor) : Numbers :=
  let v : DisplayValue := ⟨N, rd.decimalPointPosition⟩
  { displayValue := some v, value := some (scaledValue fmt v rd.multiplier) }

/-- Step 10: an overload reports both numbers as absent (R186). -/
def stepTen (o : Operation) (n : Numbers) : Numbers :=
  match o with
  | .overload => { displayValue := none, value := none }
  | .normal => n

end Sys2Proof.Machine
end

