-- ==== Sys2Proof/Machine/Selector.lean ====
section
/-! DEFINITION. The selector mux: steps 4 to 7 and the flag-derived fields of step 11 (42_selector_mux.md). -/

namespace Sys2Proof.Machine

/-- The descriptor that the duty-cycle override forces: `(1, 1, "%")` (R150). -/
def dutyDescriptor : RangeDescriptor :=
  { multiplier := ⟨1, 0⟩, decimalPointPosition := 1, unitLabel := "%" }

/-- The working values that step 2 and step 3 leave (R130, R131). -/
def workingOf (e : FunctionEntry) (rd : RangeDescriptor) : Working :=
  { mode := e.modeName, unit := e.baseUnit, rd := rd }

/-- Step 4, the duty-cycle override: the test is on the exact mode name, not on the function code (R139, R150). -/
def stepFour (F : Flags) (w : Working) : Working :=
  if w.mode = "frequency" ∧ F.JUDGE = true then { mode := "duty_cycle", unit := "%", rd := dutyDescriptor } else w

/-- Step 5, the current type (R152). -/
def stepFive (F : Flags) : Except ErrorKind (Option CurrentType) :=
  if F.AC && F.DC then .error .ConflictingCurrentType
  else .ok (if F.DC then some .DC else if F.AC then some .AC else none)

/-- Step 6, the operation (R154). -/
def stepSix (F : Flags) : Operation := if F.OL then .overload else .normal

/-- Step 7, the range mode (R155). -/
def stepSeven (F : Flags) : RangeMode := if F.AUTO then .auto else .manual

/-- `peak`: MAX has priority over MIN (R156). -/
def peakOf (F : Flags) : Option Peak := if F.MAX then some .max else if F.MIN then some .min else none

/-- Step 11: the record of what the earlier steps left, with `peak`, `hold` and `battery_low` from the flags (R157 to
R159, R205). -/
def stepEleven (F : Flags) (w : Working) (x : Selected) (n : Numbers) : Measurement :=
  { value := n.value
    unit := w.unit
    displayValue := n.displayValue
    displayUnit := w.rd.unitLabel
    mode := w.mode
    current := x.current
    peak := peakOf F
    hold := F.HOLD
    rangeMode := x.rangeMode
    operation := x.operation
    batteryLow := F.BATT }

end Sys2Proof.Machine
end

