-- ==== Sys2Proof/Machine/Registry.lean ====
section
/-! DEFINITION. The Function/Range Registry: its pinned facts, admissibility, the two lookups, and steps 2 and 3
(41_registry_lookup.md). -/

namespace Sys2Proof.Machine

/-- `REG[c]`: the function space, total over the 4-bit codes; `none` is `unregistered` (R38, R51). -/
def registryAt (REG : Registry) (c : Nibble) : Option FunctionEntry := REG[c.toNat]'c.isLt

/-- The pinned descriptor of code 0xB at index 0: `(1, 3, "V")` (R125). -/
def voltDescriptor : RangeDescriptor :=
  { multiplier := ⟨1, 0⟩, decimalPointPosition := 3, unitLabel := "V" }

/-- A present range table has length 0..16 (R124 b). -/
def tableFits (e : Option FunctionEntry) : Bool :=
  match e with
  | some ⟨_, some t, _⟩ => decide (t.length ≤ 16)
  | _ => true

/-- The pinned facts of code 0xB (R125). -/
def voltagePinned (e : Option FunctionEntry) : Bool :=
  match e with
  | some ⟨mode, some (rd :: _), _⟩ => mode == "voltage" && rd == voltDescriptor
  | _ => false

/-- The pinned facts of code 0x2 (R126). -/
def frequencyPinned (e : Option FunctionEntry) : Bool :=
  match e with
  | some ⟨mode, _, _⟩ => mode == "frequency"
  | none => false

/-- The pinned facts of code 0x4 (R127). -/
def temperaturePinned (e : Option FunctionEntry) : Bool :=
  match e with
  | some ⟨mode, none, _⟩ => mode == "temperature"
  | _ => false

/-- Whether a registry is admissible: its tables fit and the four pinned facts hold (R124). The decimal-point positions
are in 0..3 by their type. -/
def registryAdmissible (REG : Registry) : Bool :=
  REG.toList.all tableFits && voltagePinned REG[0xB] && frequencyPinned REG[0x2] && temperaturePinned REG[0x4] &&
    REG[0xA].isNone

/-- A table cut to 16 descriptors, the most that a nibble can index (R37, R121). -/
def clipTable (t : Option (List RangeDescriptor)) : Option (List RangeDescriptor) := t.map (List.take 16)

/-- The open range table of a location, if it has one. -/
def openTable (e : Option FunctionEntry) : Option (List RangeDescriptor) := e.bind (·.rangeTable)

/-- The open base unit of a location; the empty string stands for the unit of a location without an entry. -/
def openUnit (e : Option FunctionEntry) : String := (e.map (·.baseUnit)).getD ""

/-- An open location with its table cut to 16 descriptors (R124 b, R129). -/
def clipEntry (e : Option FunctionEntry) : Option FunctionEntry :=
  e.map fun x => { x with rangeTable := clipTable x.rangeTable }

/-- Code 0xB is registered with mode name "voltage" and the pinned descriptor at index 0; its later descriptors and its unit
stay open (R125). -/
def pinVoltage (e : Option FunctionEntry) : Option FunctionEntry :=
  some ⟨"voltage", some (voltDescriptor :: ((openTable e).getD []).tail.take 15), openUnit e⟩

/-- Code 0x2 is registered with mode name "frequency"; its table and unit stay open (R126). -/
def pinFrequency (e : Option FunctionEntry) : Option FunctionEntry :=
  some ⟨"frequency", clipTable (openTable e), openUnit e⟩

/-- Code 0x4 is registered with mode name "temperature" and no table; its unit stays open (R127). -/
def pinTemperature (e : Option FunctionEntry) : Option FunctionEntry :=
  some ⟨"temperature", none, openUnit e⟩

/-- The pinned facts written over any contents: an admissible registry, and every admissible registry is left as it is
(R124 to R129). -/
def pinRegistry (R : Registry) : Registry :=
  #v[clipEntry R[0x0], clipEntry R[0x1], pinFrequency R[0x2], clipEntry R[0x3],
     pinTemperature R[0x4], clipEntry R[0x5], clipEntry R[0x6], clipEntry R[0x7],
     clipEntry R[0x8], clipEntry R[0x9], none, pinVoltage R[0xB],
     clipEntry R[0xC], clipEntry R[0xD], clipEntry R[0xE], clipEntry R[0xF]]

/-- The machine's registry: the open contents with the pinned facts (R39, D7). DESIGN CHOICE, safe (log entry 5). -/
def configRegistry : Registry := pinRegistry Config.registryContents

/-- `FLOOKUP(c)` (R120). -/
def flookup (REG : Registry) (c : Nibble) : Except ErrorKind FunctionEntry :=
  match registryAt REG c with
  | some e => .ok e
  | none => .error .UnknownFunction

/-- `RLOOKUP(e, r)` over the entry's table: 0-based, and `r >= len(table)` fails (R52, R121). -/
def rlookup (table : List RangeDescriptor) (r : Nibble) : Except ErrorKind RangeDescriptor :=
  match table[r.toNat]? with
  | some rd => .ok rd
  | none => .error .UnknownRange

/-- Step 2 (R130). -/
def stepTwo (REG : Registry) (c : Nibble) : Except ErrorKind FunctionEntry := flookup REG c

/-- Step 3: an entry without a table aborts with `UnsupportedMode` and the range index is not consulted (R131,
R132). -/
def stepThree (e : FunctionEntry) (r : Nibble) : Except ErrorKind RangeDescriptor :=
  match e.rangeTable with
  | none => .error .UnsupportedMode
  | some t => rlookup t r

end Sys2Proof.Machine
end

