-- ==== Sys2Proof/Machine/State.lean ====
section
/-! DEFINITION. The machine's state, the reasons a step can stop, and the state after reset (10_state.md, 70_reset_and_hazards.md). The
block has no read-write memory (R50), so State holds none. -/

namespace Sys2Proof.Machine

/-- Why the machine stops with a fault. No step raises one: every error kind of the spec is taken as an abort, a next
state (R239). -/
inductive Fault where
  /-- Raised by `readMeasurement` and `readRegisters`: `M` is read while it holds no value (R44, U10). Safe: no number is
  made up. -/
  | measurementHoldsNoValue
deriving DecidableEq, Repr

/-- Why a move is refused. -/
inductive Refusal where
  /-- An instruction without a meaning, by its mnemonic. No arm of this model answers it. Safe. -/
  | notModelled (mnemonic : String)
  /-- A DECODE is requested while one is in progress; raised by `exec`, `step` and `request` (R265, U14). Safe. -/
  | decodeInProgress
  /-- `LEN` or a packet register would change while a DECODE is in progress; raised by `present` (R266, U14). Safe. -/
  | inputHeldDuringDecode
  /-- A register image holds encoding 3 of `M.current` or `M.peak`, which is never produced; raised by
  `measurementOfImage` (R33, U13). Safe. -/
  | reservedEncoding
deriving DecidableEq, Repr

/-- The state of one instance of the block, with the stream of inputs its caller will present. -/
structure State where
  /-- `P[0]` to `P[8]`, the packet byte registers (R21). -/
  P : Packet
  /-- `LEN`, a natural number: how many bytes the caller presented (R24). Its width `LEN_W` is the open parameter
  `lenWidth` (R8, D20), and `State.Inv` says that `LEN` fits it (log entry 20). -/
  LEN : Nat
  /-- The step index `S` with the values that live inside one DECODE (R25, R26, R28); `idle` outside one. -/
  stage : Stage
  /-- The output latch `M`; `none` while it holds no value (R30, R44, R239, R260). -/
  M : Option Measurement
  /-- `VALID`: 1 exactly when the last DECODE emitted a Measurement (R34). -/
  VALID : BitVec 1
  /-- `ERR`: the code of the error kind that aborted the last DECODE, or 0 (R34, R230). -/
  ERR : BitVec 3
  /-- `REG`: the Function/Range Registry, read-only (R38). -/
  REG : Registry
  /-- The numerics configuration in force, the parameter `FL` (R8, R183); no step writes it. -/
  numerics : FloatFormat
  /-- The caller's stream: the inputs it has still to present, first the next one (R3, R270, D2). The host's, not the
  block's. -/
  stream : List (List Byte)
  /-- The model's own counter of presented inputs; it indexes the free values. -/
  freeCount : Nat
deriving DecidableEq, Repr

/-- The state after reset (R43, R260): idle, `VALID = 0`, `ERR = 0`, `M` without a value, `REG` its constant contents. The
zeros of `P` and `LEN` are a DESIGN CHOICE, unsafe (log entry 1): a DECODE requested before any input reads that `LEN`; binary64 is the spec's default, unsafe (log entry 2); the
empty stream and the counter are a DESIGN CHOICE, safe (log entries 3 and 4). -/
def State.reset : State :=
  { P := ⟨0, 0, 0, 0, 0, 0, 0, 0, 0⟩
    LEN := 0
    stage := .idle
    M := none
    VALID := 0
    ERR := 0
    REG := configRegistry
    numerics := .binary64
    stream := []
    freeCount := 0 }

end Sys2Proof.Machine
end

