-- ==== Sys2Proof/Machine/Ops.lean ====
section
/-! DEFINITION. The named operations over the state: presenting an input, requesting a DECODE, ending it by an abort (the
block's exception) or by the emit, the steps 2 to 11 as one function, and reset (44_packet_decode.md,
60_exceptions.md). -/

namespace Sys2Proof.Machine

/-- What a move of the machine answers. -/
abbrev Answer := Host.Outcome State Fault Refusal

/-- The step index `S` of a stage (R25); 0 when idle (R43). -/
def stageIndex (g : Stage) : Fin 12 :=
  match g with
  | .idle => 0
  | .framing => 0
  | .status => 1
  | .function _ => 2
  | .range _ _ => 3
  | .override _ _ _ => 4
  | .current _ _ _ => 5
  | .operation _ _ _ _ => 6
  | .rangeMode _ _ _ _ _ => 7
  | .digits _ _ _ _ => 8
  | .scale _ _ _ _ _ => 9
  | .mask _ _ _ _ _ _ => 10
  | .emit _ _ _ _ _ _ => 11

/-- The flag set of a stage: written by step 1, and none outside a DECODE (R27). -/
def stageFlags (g : Stage) : Option Flags :=
  match g with
  | .idle => none
  | .framing => none
  | .status => none
  | .function F => some F
  | .range F _ => some F
  | .override F _ _ => some F
  | .current F _ _ => some F
  | .operation F _ _ _ => some F
  | .rangeMode F _ _ _ _ => some F
  | .digits F _ _ _ => some F
  | .scale F _ _ _ _ => some F
  | .mask F _ _ _ _ _ => some F
  | .emit F _ _ _ _ _ => some F

/-- `S` (R25). -/
def State.S (s : State) : Fin 12 := stageIndex s.stage

/-- `F` (R26, R27). -/
def State.F (s : State) : Option Flags := stageFlags s.stage

/-- The codes of the error kinds (R230). -/
def errorCode (k : ErrorKind) : BitVec 3 :=
  match k with
  | .FramingError => 1
  | .InvalidStatusBits => 2
  | .UnknownFunction => 3
  | .UnknownRange => 4
  | .ConflictingCurrentType => 5
  | .UnsupportedMode => 6

/-- The error kind of a code; 0 is no error and 7 is unused (R230). -/
def errorOfCode (c : BitVec 3) : Option ErrorKind :=
  match c.toNat with
  | 1 => some .FramingError
  | 2 => some .InvalidStatusBits
  | 3 => some .UnknownFunction
  | 4 => some .UnknownRange
  | 5 => some .ConflictingCurrentType
  | 6 => some .UnsupportedMode
  | _ => none

/-- TAKING AN EXCEPTION, the abort of a DECODE: `ERR` gets the code, `VALID` gets 0, `M` holds no value, the DECODE is
over, and nothing else is saved or changed (R239). The caller is the handler; the return from it is only the request of
the next DECODE (R244), so there is no operation for it. -/
def State.abort (s : State) (k : ErrorKind) : State :=
  { s with ERR := errorCode k, VALID := 0, M := none, stage := .idle }

/-- The emit: `M` is written as a whole, `VALID` gets 1, `ERR` gets 0, the DECODE is over (R30, R205). -/
def State.emit (s : State) (m : Measurement) : State :=
  { s with M := some m, VALID := 1, ERR := 0, stage := .idle }

/-- The end of a DECODE, in exactly one of its two ways (R209). -/
def State.finish (s : State) (r : Except ErrorKind Measurement) : State :=
  match r with
  | .ok m => s.emit m
  | .error k => s.abort k

/-- `LEN_W`, the width of the length input: an open parameter of at least 4 bits (R8, R24, D20; log entry 20). -/
def lenWidth : Nat := 4 + Config.lenWidthAboveFour

/-- What `LEN` holds of a count that its width cannot hold: any number of that width but 9, since the input is no packet
(R58). DESIGN CHOICE, safe: a free value (log entry 20). -/
def overlongCount (n : Nat) : Nat :=
  let v := Config.overlongCount n % (2 ^ lenWidth - 1)
  if v < 9 then v else v + 1

/-- What `LEN` holds of the count of an input's bytes: the count itself where `LEN_W` bits hold it (R24). Counts below 16 fit
every width and are tested first, so that they are found to fit without knowing the width. -/
def presentedLength (n count : Nat) : Nat :=
  if count < 16 then count else if count < 2 ^ lenWidth then count else overlongCount n

/-- The load that presents an input: `LEN` counts its bytes and the packet registers hold them; when they are not nine,
the registers hold an unspecified packet (R21, R24, U11). DESIGN CHOICE, safe: a free value (log entry 11). -/
def State.load (s : State) (input : List Byte) : State :=
  { s with
    LEN := presentedLength s.freeCount input.length
    P := (packetOf input).getD (Config.unspecifiedPacket s.freeCount)
    freeCount := s.freeCount + 1 }

/-- The state with the Packet Parser at the stage given (R25). -/
def State.enter (s : State) (g : Stage) : State := { s with stage := g }

/-- The caller's load between DECODEs; while one is in progress the input must not change (R212, R266).
DESIGN CHOICE, safe: it is refused (log entry 7). -/
def present (s : State) (input : List Byte) : Answer :=
  if s.stage = .idle then .next (s.load input) else .refused .inputHeldDuringDecode

/-- The request of a DECODE on the input presented: one at a time (R200, R265). A request before any input was presented is
given no meaning by the spec: DESIGN CHOICE, unsafe: its DECODE reads the `LEN` of reset and aborts with `FramingError`
(log entry 1). -/
def request (s : State) : Answer :=
  if s.stage = .idle then .next (s.enter .framing) else .refused .decodeInProgress

/-- Reset of the block: the values of R43 and R260; the registry, the numerics configuration, the caller's stream and
the model's counter stay. A DECODE in progress is abandoned without an outcome (R261). DESIGN CHOICE, safe (log entry
18). -/
def State.resetBlock (s : State) : State :=
  { State.reset with REG := s.REG, numerics := s.numerics, stream := s.stream, freeCount := s.freeCount }

/-- The load of the next input of the caller's stream: the input is presented and the rest of the stream is left
(R212, R270). -/
def State.accept (s : State) (input : List Byte) (rest : List (List Byte)) : State :=
  { s.load input with stream := rest }

/-- The next input of the caller's stream, presented; none when the caller has no further input (R270). -/
def State.fetch (s : State) : Option State :=
  match s.stream with
  | [] => none
  | input :: rest => some (s.accept input rest)

/-- Steps 0 and 1 on the presented input: the instruction in the packet registers, or the error that aborts (R79, R92,
R201). -/
def State.decodeLoaded (s : State) : Except ErrorKind Instr :=
  if s.LEN = 9 then decodePacket s.P else .error .FramingError

/-- Steps 2 to 11 of the Packet Parser for a function code and a packet's fields, each a hard precondition for the next
(R202, R203). -/
def measure (REG : Registry) (fmt : FloatFormat) (c : Nibble) (p : Fields) : Except ErrorKind Measurement := do
  let e ← stepTwo REG c
  let rd ← stepThree e p.r
  let w := stepFour p.flags (workingOf e rd)
  let current ← stepFive p.flags
  let x : Selected := { current := current, operation := stepSix p.flags, rangeMode := stepSeven p.flags }
  let N := stepEight p.d0 p.d1 p.d2 p.d3 p.flags
  return stepEleven p.flags w x (stepTen x.operation (stepNine fmt N w.rd))

/-- DECODE as the function it is: of the presented bytes, the registry and the numerics configuration, and of nothing
else (R200, R206). -/
def decodeInput (REG : Registry) (fmt : FloatFormat) (input : List Byte) : Except ErrorKind Measurement :=
  match decode input with
  | .ok i => measure REG fmt (codeOf i) (fieldsIn i)
  | .error k => .error k

/-- The common meaning of the opcode map's rows: steps 2 to 11 for the row's code, ending in the emit or an abort
(R138, R202). Only an idle instance takes a request (R265). -/
def State.decodeRow (s : State) (c : Nibble) (p : Fields) : Answer :=
  if s.stage = .idle then .next (s.finish (measure s.REG s.numerics c p)) else .refused .decodeInProgress

end Sys2Proof.Machine
end

