-- ==== Sys2Proof/Machine/Parameter.lean ====
section
/-! DEFINITION. The meanings of the twelve parameter rows, of whose function codes the source says nothing
(41_registry_lookup.md R129, R138): the generic steps over whatever the registry holds. -/

namespace Sys2Proof.Machine

/-- `FN0`: function code 0x0 (R138). -/
def execFn0 (p : Fields) (s : State) : Answer := s.decodeRow 0x0 p

/-- `FN1`: function code 0x1 (R138). -/
def execFn1 (p : Fields) (s : State) : Answer := s.decodeRow 0x1 p

/-- `FN3`: function code 0x3 (R138). -/
def execFn3 (p : Fields) (s : State) : Answer := s.decodeRow 0x3 p

/-- `FN5`: function code 0x5 (R138). -/
def execFn5 (p : Fields) (s : State) : Answer := s.decodeRow 0x5 p

/-- `FN6`: function code 0x6 (R138). -/
def execFn6 (p : Fields) (s : State) : Answer := s.decodeRow 0x6 p

/-- `FN7`: function code 0x7 (R138). -/
def execFn7 (p : Fields) (s : State) : Answer := s.decodeRow 0x7 p

/-- `FN8`: function code 0x8 (R138). -/
def execFn8 (p : Fields) (s : State) : Answer := s.decodeRow 0x8 p

/-- `FN9`: function code 0x9 (R138). -/
def execFn9 (p : Fields) (s : State) : Answer := s.decodeRow 0x9 p

/-- `FNC`: function code 0xC (R138). -/
def execFnc (p : Fields) (s : State) : Answer := s.decodeRow 0xC p

/-- `FND`: function code 0xD (R138). -/
def execFnd (p : Fields) (s : State) : Answer := s.decodeRow 0xD p

/-- `FNE`: function code 0xE (R138). -/
def execFne (p : Fields) (s : State) : Answer := s.decodeRow 0xE p

/-- `FNF`: function code 0xF (R138). -/
def execFnf (p : Fields) (s : State) : Answer := s.decodeRow 0xF p

end Sys2Proof.Machine
end

