-- ==== Sys2Proof/Machine/Pinned.lean ====
section
/-! DEFINITION. The meanings of the rows whose function code the source pins: VOLT, FREQ, DUTY, TEMP, UNREG
(41_registry_lookup.md R133 to R137). Each runs the common step list; what differs is what the registry resolves. -/

namespace Sys2Proof.Machine

/-- `FREQ`: function code 0x2 with JUDGE clear, so step 4 does nothing (R134). -/
def execFreq (p : Fields) (s : State) : Answer := s.decodeRow 0x2 p

/-- `DUTY`: function code 0x2 with JUDGE set; the range lookup of step 3 still runs, then step 4 overrides (R135). -/
def execDuty (p : Fields) (s : State) : Answer := s.decodeRow 0x2 p

/-- `TEMP`: function code 0x4, whose entry has no range table: step 3 aborts with `UnsupportedMode` (R136). -/
def execTemp (p : Fields) (s : State) : Answer := s.decodeRow 0x4 p

/-- `UNREG`: function code 0xA, which is unregistered: step 2 aborts with `UnknownFunction` (R137). -/
def execUnreg (p : Fields) (s : State) : Answer := s.decodeRow 0xA p

/-- `VOLT`: function code 0xB (R133). -/
def execVolt (p : Fields) (s : State) : Answer := s.decodeRow 0xB p

end Sys2Proof.Machine
end

