-- ==== Sys2Proof/Machine/Dispatch.lean ====
section
/-! DEFINITION. The dispatch: one arm per constructor of Instr, each one call of its meaning. -/

namespace Sys2Proof.Machine

/-- The meaning of an instruction. -/
def exec (i : Instr) (s : State) : Host.Outcome State Fault Refusal :=
  match i with
  | .fn0 p => Sys2Proof.Machine.execFn0 p s
  | .fn1 p => Sys2Proof.Machine.execFn1 p s
  | .freq p => Sys2Proof.Machine.execFreq p s
  | .duty p => Sys2Proof.Machine.execDuty p s
  | .fn3 p => Sys2Proof.Machine.execFn3 p s
  | .temp p => Sys2Proof.Machine.execTemp p s
  | .fn5 p => Sys2Proof.Machine.execFn5 p s
  | .fn6 p => Sys2Proof.Machine.execFn6 p s
  | .fn7 p => Sys2Proof.Machine.execFn7 p s
  | .fn8 p => Sys2Proof.Machine.execFn8 p s
  | .fn9 p => Sys2Proof.Machine.execFn9 p s
  | .unreg p => Sys2Proof.Machine.execUnreg p s
  | .volt p => Sys2Proof.Machine.execVolt p s
  | .fnc p => Sys2Proof.Machine.execFnc p s
  | .fnd p => Sys2Proof.Machine.execFnd p s
  | .fne p => Sys2Proof.Machine.execFne p s
  | .fnf p => Sys2Proof.Machine.execFnf p s

end Sys2Proof.Machine
end

