-- ==== Sys2Proof/Machine/Step.lean ====
section
/-! DEFINITION. One step of the machine: one DECODE of the caller's next input, as one atomic transition
(70_reset_and_hazards.md R269), and the placing of an instruction where the step fetches. -/

namespace Sys2Proof.Machine

/-- One step. An idle instance takes the caller's next input: the input is loaded, steps 0 and 1 read the instruction in
it or abort, and the instruction runs (R200, R202). With no further input the instance stays idle and holds its outputs
(R209, R252). While a DECODE is in progress no other may be requested (R265). DESIGN CHOICE, safe: the caller's inputs
stand in the stream (log entry 3). -/
def step (s : State) : Host.Outcome State Fault Refusal :=
  if s.stage = .idle then
    match s.fetch with
    | none => .next s
    | some t =>
      match t.decodeLoaded with
      | .ok i => exec i t
      | .error k => .next (t.abort k)
  else .refused .decodeInProgress

/-- The state with the instruction of these bits as the caller's next input. The fetch needs an idle instance, so the
stage is idle; nothing else changes. -/
def State.withFetchWord (s : State) (nbits w : Nat) : State :=
  { s with stage := .idle, stream := tableBytes nbits w :: s.stream }

end Sys2Proof.Machine
end

