-- ==== Sys2Proof/Machine/Adapter.lean ====
section
/-! DEFINITION. The presentation adapters of the host, outside the block: the thin contract the spec transcribes
(44_packet_decode.md R213 to R215), and the text of a display value (43_numeric_converter.md R178). -/

namespace Sys2Proof.Machine

/-- A decimal number's digits, at least `width` of them, with leading zeros. -/
def paddedDigits (width n : Nat) : String :=
  let digits := Nat.toDigits 10 n
  String.ofList (List.replicate (width - digits.length) '0' ++ digits)

/-- The text of `dec(N, p)`: the exact decimal with exactly `p` fractional digits, in the notation of R178 and R180. That the
adapter prints this notation (one leading 0 below 1, a point, a minus sign and no plus sign) is not stated (N9, N13):
DESIGN CHOICE, unsafe (log entry 15). -/
def displayText (v : DisplayValue) : String :=
  let scale := 10 ^ v.p.val
  let n := v.N.natAbs
  (if v.N < 0 then "-" else "") ++ paddedDigits 1 (n / scale) ++
    (if v.p = 0 then "" else "." ++ paddedDigits v.p.val (n % scale))

/-- The spelling of `current`; an absent value renders as the empty string (R29, R214, D25). -/
def currentText (c : Option CurrentType) : String :=
  match c with
  | none => ""
  | some .DC => "DC"
  | some .AC => "AC"

/-- The spelling of `peak` (R29, R214, D25). -/
def peakText (k : Option Peak) : String :=
  match k with
  | none => ""
  | some .max => "max"
  | some .min => "min"

/-- The spelling of `operation` (R29, D25). -/
def operationText (o : Operation) : String :=
  match o with
  | .normal => "normal"
  | .overload => "overload"

/-- A boolean renders as "1" or "0" (R214). -/
def boolText (b : Bool) : String := if b then "1" else "0"

/-- The delimited-field adapter's fields in their fixed order: value, unit, mode, current, operation, peak, battery_low,
hold. `value` is empty whenever the operation is not "normal"; its number format is not stated, a free value (R214). -/
def delimitedFields (m : Measurement) : List String :=
  [match m.operation, m.value with
    | .normal, some v => Config.valueText v
    | _, _ => "",
   m.unit, m.mode, currentText m.current, operationText m.operation, peakText m.peak, boolText m.batteryLow,
   boolText m.hold]

/-- The human-readable adapter's line; which form it takes follows the operation, and the warning's text is not stated, a
free value (R215, N13). DEDUCED (log entry 15). A normal record without a display value, which no DECODE emits, renders no number. -/
def humanLine (m : Measurement) : String :=
  (match m.operation with
    | .normal => (m.displayValue.map displayText).getD "" ++ " " ++ m.displayUnit
    | .overload => "-, the measurement is " ++ operationText m.operation ++ "ed!") ++
  (if m.batteryLow then Config.batteryWarning else "")

end Sys2Proof.Machine
end

