-- ==== Sys2Proof/Machine/Parser.lean ====
section
/-! DEFINITION. The Packet Parser one step at a time: the eleven steps and the framing check as transitions of the step
index `S` over the packet registers (10_state.md R25, 44_packet_decode.md R202). The machine's `step` runs a whole
DECODE at once (R269); this is the same DECODE seen from inside. -/

namespace Sys2Proof.Machine

/-- The next stage when a step succeeds, the abort when it fails (R203). -/
def State.proceed {α : Type} (s : State) (r : Except ErrorKind α) (next : α → Stage) : State :=
  match r with
  | .ok a => s.enter (next a)
  | .error k => s.abort k

/-- One step of the Packet Parser: the step that `S` names, which advances `S` by 1, ends the DECODE, or aborts (R25,
R202). Outside a DECODE nothing happens. At `S = 0` of a DECODE requested before any input, `LEN` is that of reset (log
entry 1). -/
def tick (s : State) : State :=
  match s.stage with
  | .idle => s
  | .framing => if s.LEN = 9 then s.enter .status else s.abort .FramingError
  | .status => s.proceed (stepOne s.P) .function
  | .function F => s.proceed (stepTwo s.REG (functionCode s.P)) (.range F)
  | .range F e => s.proceed (stepThree e (rangeIndex s.P)) fun rd => .override F e (workingOf e rd)
  | .override F e w => s.enter (.current F e (stepFour F w))
  | .current F e w => s.proceed (stepFive F) (.operation F e w)
  | .operation F e w c => s.enter (.rangeMode F e w c (stepSix F))
  | .rangeMode F e w c o =>
    s.enter (.digits F e w { current := c, operation := o, rangeMode := stepSeven F })
  | .digits F e w x =>
    s.enter (.scale F e w x (stepEight (lo4 s.P.digit0) (lo4 s.P.digit1) (lo4 s.P.digit2) (lo4 s.P.digit3) F))
  | .scale F e w x N => s.enter (.mask F e w x N (stepNine s.numerics N w.rd))
  | .mask F e w x N n => s.enter (.emit F e w x N (stepTen x.operation n))
  | .emit F _ w x _ n => s.emit (stepEleven F w x n)

/-- `n` steps of the Packet Parser. -/
def ticks (n : Nat) (s : State) : State :=
  match n with
  | 0 => s
  | k + 1 => ticks k (tick s)

end Sys2Proof.Machine
end

