-- ==== Sys2Proof/Machine/Registers.lean ====
section
/-! DEFINITION. What the caller reads: the record latch, the outcome of the last DECODE, and the register encoding of
the record (10_state.md R33, R34, R44). -/

namespace Sys2Proof.Machine

/-- The caller's read of `M`: only while `VALID = 1` does it hold a value; a read of the latch without one faults, and never
answers zero or the record before (R44, R267). -/
def readMeasurement (s : State) : Host.Outcome Measurement Fault Refusal :=
  if s.VALID = 1 then
    match s.M with
    | some m => .next m
    | none => .fault .measurementHoldsNoValue
  else .fault .measurementHoldsNoValue

/-- How the last DECODE ended: its Measurement, its error kind, or nothing before the first one (R34). -/
def State.lastOutcome (s : State) : Option (Except ErrorKind Measurement) :=
  if s.VALID = 1 then s.M.map .ok else (errorOfCode s.ERR).map .error

/-- The register fields of `M` (R33). -/
structure RegisterImage where
  valuePresent : BitVec 1
  value : FlNumber
  unit : String
  dvPresent : BitVec 1
  dvN : BitVec 16
  dvP : BitVec 2
  displayUnit : String
  mode : String
  current : BitVec 2
  peak : BitVec 2
  hold : BitVec 1
  rangeMode : BitVec 1
  operation : BitVec 1
  batteryLow : BitVec 1
deriving DecidableEq, Repr

/-- `M.current`: 0 absent, 1 "DC", 2 "AC" (R33). -/
def currentCode (c : Option CurrentType) : BitVec 2 :=
  match c with
  | none => 0
  | some .DC => 1
  | some .AC => 2

/-- `M.peak`: 0 absent, 1 "max", 2 "min" (R33). -/
def peakCode (k : Option Peak) : BitVec 2 :=
  match k with
  | none => 0
  | some .max => 1
  | some .min => 2

/-- `M.range_mode`: 0 "manual", 1 "auto" (R33). -/
def rangeModeCode (m : RangeMode) : BitVec 1 :=
  match m with
  | .manual => 0
  | .auto => 1

/-- `M.operation`: 0 "normal", 1 "overload" (R33). -/
def operationCode (o : Operation) : BitVec 1 :=
  match o with
  | .normal => 0
  | .overload => 1

/-- The register encoding of a record. The number fields of an absent number are unspecified: free values of the counter
(R33, U12). -/
def imageOf (n : Nat) (m : Measurement) : RegisterImage :=
  { valuePresent := BitVec.ofBool m.value.isSome
    value := m.value.getD (Config.unspecifiedValue n)
    unit := m.unit
    dvPresent := BitVec.ofBool m.displayValue.isSome
    dvN := match m.displayValue with
      | some v => BitVec.ofInt 16 v.N
      | none => Config.unspecifiedDvN n
    dvP := match m.displayValue with
      | some v => BitVec.ofNat 2 v.p.val
      | none => Config.unspecifiedDvP n
    displayUnit := m.displayUnit
    mode := m.mode
    current := currentCode m.current
    peak := peakCode m.peak
    hold := BitVec.ofBool m.hold
    rangeMode := rangeModeCode m.rangeMode
    operation := operationCode m.operation
    batteryLow := BitVec.ofBool m.batteryLow }

/-- The current type of a code; 3 is reserved (R33). -/
def currentOfCode (c : BitVec 2) : Option (Option CurrentType) :=
  match c.toNat with
  | 0 => some none
  | 1 => some (some .DC)
  | 2 => some (some .AC)
  | _ => none

/-- The peak of a code; 3 is reserved (R33). -/
def peakOfCode (c : BitVec 2) : Option (Option Peak) :=
  match c.toNat with
  | 0 => some none
  | 1 => some (some .max)
  | 2 => some (some .min)
  | _ => none

/-- The record of a register image; encoding 3 of `M.current` or `M.peak` is refused (R33, U13). -/
def measurementOfImage (g : RegisterImage) : Host.Outcome Measurement Fault Refusal :=
  match currentOfCode g.current, peakOfCode g.peak with
  | some current, some peak =>
    .next
      { value := if g.valuePresent = 1 then some g.value else none
        unit := g.unit
        displayValue := if g.dvPresent = 1 then some ⟨g.dvN.toInt, g.dvP.toFin⟩ else none
        displayUnit := g.displayUnit
        mode := g.mode
        current := current
        peak := peak
        hold := g.hold == 1
        rangeMode := if g.rangeMode = 1 then .auto else .manual
        operation := if g.operation = 1 then .overload else .normal
        batteryLow := g.batteryLow == 1 }
  | _, _ => .refused .reservedEncoding

/-- The caller's read of the register fields of `M` (R33, R44). -/
def readRegisters (s : State) : Host.Outcome RegisterImage Fault Refusal :=
  match readMeasurement s with
  | .next m => .next (imageOf s.freeCount m)
  | .fault r => .fault r
  | .refused r => .refused r

end Sys2Proof.Machine
end

