-- ==== Sys2Proof/Safety.lean ====
section
/-! DEFINITION. What counts as a good state and what a caller observes of a run, in the terms the statements use. -/

namespace Sys2Proof.Machine

/-- A display integer is in `-16665 .. 16665` (R174). -/
def integerInRange (N : Int) : Bool := decide (-16665 ≤ N ∧ N ≤ 16665)

/-- The numbers of a record fit its operation: an overload has neither, a normal record has both, and its display integer
is in range (R174, R186, R216). -/
def numbersFit (o : Operation) (n : Numbers) : Bool :=
  match o, n.displayValue, n.value with
  | .overload, none, none => true
  | .normal, some v, some _ => integerInRange v.N
  | _, _, _ => false

/-- A record that a DECODE can emit, as to its numbers. -/
def recordFits (m : Measurement) : Bool := numbersFit m.operation ⟨m.displayValue, m.value⟩

/-- The values inside a DECODE that its later steps rely on. -/
def stageFits (g : Stage) : Bool :=
  match g with
  | .scale _ _ _ _ N => integerInRange N
  | .mask _ _ _ _ _ n => numbersFit .normal n
  | .emit _ _ _ x _ n => numbersFit x.operation n
  | _ => true

/-- The invariant of the machine: the registry is admissible, `VALID` says whether `M` holds a record, a valid record
leaves `ERR` at 0, `ERR` is never the unused code 7, the record's numbers fit, and `LEN` fits its width (R24, R34, R44,
R124, R174, R186, R230). -/
structure State.Inv (s : State) : Prop where
  registry : registryAdmissible s.REG = true
  validRecord : s.VALID = 1 ↔ s.M.isSome = true
  validNoError : s.VALID = 1 → s.ERR = 0
  errorCodeUsed : s.ERR ≠ 7
  record : ∀ m, s.M = some m → recordFits m = true
  stage : stageFits s.stage = true
  length : s.LEN < 2 ^ lenWidth

/-- What a caller that makes `n` steps observes: how the DECODE of each step ended, in order (R270). -/
def runOutcomes (n : Nat) (s : State) : List (Option (Except ErrorKind Measurement)) :=
  match n with
  | 0 => []
  | k + 1 =>
    match step s with
    | .next t => t.lastOutcome :: runOutcomes k t
    | .fault _ => []
    | .refused _ => []

/-- Two inputs that differ at most in ignored bits: byte by byte they have the same low nibble (R22, R23, R77). -/
def sameMeaningfulBits (a b : List Byte) : Bool := a.map lo4 == b.map lo4

end Sys2Proof.Machine
end

