-- ==== Sys2Proof/Certificates/Slice0/Obligations.lean ====
section
/-! DEFINITION. The statements about this model, for the provers. A statement's docstring names the rules it comes from.
`recordOf`, `outcomeTree` and the other helpers say the spec's tables in the plainest terms, apart from the operations that
the meanings use. -/

namespace Sys2Proof.Claims

open Sys2Proof.Machine

/-- `N` of four digit nibbles and SIGN (R171, R175). -/
def displayInteger (p : Fields) : Int :=
  (if p.flags.SIGN then -1 else 1) *
    (1000 * (p.d0.toNat : Int) + 100 * (p.d1.toNat : Int) + 10 * (p.d2.toNat : Int) + (p.d3.toNat : Int))

/-- The Measurement of a packet's fields for a mode, a unit and a descriptor: steps 5 to 11 for a packet that does not set
both AC and DC (R152 to R159, R171, R175, R177, R181, R186, R205). -/
def recordOf (fmt : FloatFormat) (p : Fields) (mode unit : String) (rd : RangeDescriptor) : Measurement :=
  let N := displayInteger p
  let dp := rd.decimalPointPosition
  { value :=
      if p.flags.OL then none
      else some (flMul fmt (flOf fmt ⟨N, -(dp.val : Int)⟩) (flOf fmt rd.multiplier))
    unit := unit
    displayValue := if p.flags.OL then none else some ⟨N, dp⟩
    displayUnit := rd.unitLabel
    mode := mode
    current := if p.flags.DC then some .DC else if p.flags.AC then some .AC else none
    peak := if p.flags.MAX then some .max else if p.flags.MIN then some .min else none
    hold := p.flags.HOLD
    rangeMode := if p.flags.AUTO then .auto else .manual
    operation := if p.flags.OL then .overload else .normal
    batteryLow := p.flags.BATT }

/-- The state after the emit of a record: `M`, `VALID` and `ERR` are written and nothing else (R205). -/
def emitted (s : State) (m : Measurement) : State := { s with M := some m, VALID := 1, ERR := 0 }

/-- The state after an abort with a code: `ERR` and `VALID` are written, `M` holds no value, and nothing else changes
(R239). -/
def aborted (s : State) (code : BitVec 3) : State := { s with M := none, VALID := 0, ERR := code }

/-- The descriptor `(1, 1, "%")` that the duty-cycle override forces (R150). -/
def percent : RangeDescriptor := ⟨⟨1, 0⟩, 1, "%"⟩

/-- The record of a row whose code resolves to the entry `e` and the descriptor `rd`, with step 4 on the entry's mode name
(R138, R150). -/
def rowRecord (fmt : FloatFormat) (p : Fields) (e : FunctionEntry) (rd : RangeDescriptor) : Measurement :=
  if e.modeName = "frequency" ∧ p.flags.JUDGE = true then recordOf fmt p "duty_cycle" "%" percent
  else recordOf fmt p e.modeName e.baseUnit rd

/-- The ten flags of a packet by the byte layout table (R26, R54). -/
def layoutFlags (P : Packet) : Flags :=
  { OL := P.statusByte.getLsbD 0, BATT := P.statusByte.getLsbD 1, SIGN := P.statusByte.getLsbD 2,
    JUDGE := P.statusByte.getLsbD 3, MIN := P.option1Byte.getLsbD 1, MAX := P.option1Byte.getLsbD 2,
    HOLD := P.option1Byte.getLsbD 3, AUTO := P.option2Byte.getLsbD 1, AC := P.option2Byte.getLsbD 2,
    DC := P.option2Byte.getLsbD 3 }

/-- The fields of a packet by the byte layout table: low nibbles and flags (R54, R71). -/
def layoutFields (P : Packet) : Fields :=
  { r := P.rangeByte.setWidth 4, d0 := P.digit0.setWidth 4, d1 := P.digit1.setWidth 4, d2 := P.digit2.setWidth 4,
    d3 := P.digit3.setWidth 4, flags := layoutFlags P }

/-- Whether a packet has a fixed-zero bit set (R82). -/
def fixedZeroBitSet (P : Packet) : Bool := P.option1Byte.getLsbD 0 || P.option2Byte.getLsbD 0

/-- The decision tree of the outcome, line by line (R208). -/
def outcomeTree (REG : Registry) (fmt : FloatFormat) (input : List Byte) : Except ErrorKind Measurement :=
  match input with
  | [b0, b1, b2, b3, b4, b5, b6, b7, b8] =>
    let P : Packet := ⟨b0, b1, b2, b3, b4, b5, b6, b7, b8⟩
    if fixedZeroBitSet P then .error .InvalidStatusBits
    else
      match registryAt REG (P.functionByte.setWidth 4) with
      | none => .error .UnknownFunction
      | some e =>
        match e.rangeTable with
        | none => .error .UnsupportedMode
        | some table =>
          match table[(P.rangeByte.setWidth 4).toNat]? with
          | none => .error .UnknownRange
          | some rd =>
            if P.option2Byte.getLsbD 2 && P.option2Byte.getLsbD 3 then .error .ConflictingCurrentType
            else .ok (rowRecord fmt (layoutFields P) e rd)
  | _ => .error .FramingError

/-- The twelve parameter rows with their codes (R129, R138). -/
def parameterRows : List ((Fields → Instr) × Nibble) :=
  [(Instr.fn0, 0x0), (Instr.fn1, 0x1), (Instr.fn3, 0x3), (Instr.fn5, 0x5), (Instr.fn6, 0x6), (Instr.fn7, 0x7),
   (Instr.fn8, 0x8), (Instr.fn9, 0x9), (Instr.fnc, 0xC), (Instr.fnd, 0xD), (Instr.fne, 0xE), (Instr.fnf, 0xF)]

/-- The sixteen rows a code selects, with their codes; code 0x2 has two (R80). -/
def allRows : List ((Fields → Instr) × Nibble) :=
  parameterRows ++
    [(Instr.freq, 0x2), (Instr.duty, 0x2), (Instr.temp, 0x4), (Instr.unreg, 0xA), (Instr.volt, 0xB)]

/-- Magnitudes below which a number rounds to a finite binary64 image: the largest finite number and half the distance to the
next power of two. -/
def overflowBound : Rat := 2 ^ 1024 - 2 ^ 970

/-- The image `a` is the number `x` rounded to nearest, ties to even: no finite image is nearer, and where another number
is as near, the significand of `a` is even (R183). -/
def RoundsTo (x : Rat) (a : FlNumber) : Prop :=
  isFinite a = true ∧
    ∀ b : FlNumber, isFinite b = true →
      |x - numberOfImage a| ≤ |x - numberOfImage b| ∧
        (|x - numberOfImage a| = |x - numberOfImage b| →
          numberOfImage b = numberOfImage a ∨ significand a % 2 = 0)

end Sys2Proof.Claims

open Sys2Proof Sys2Proof.Machine Sys2Proof.Claims

/-! Reset and the invariant. -/

/-- Reset leaves the block idle with `VALID = 0`, `ERR = 0`, `S = 0`, no flag set, a record latch whose read faults, and the
registry at its constant contents (R43, R44, R260). The model's choices in it: that the read of `M` stops as a fault, where
R44 lets a model fault or refuse (log entry 9), and the construction of the registry from open contents (log entry 5). It
says nothing of the values that log entries 1 to 4 choose. -/
def Obligations.ResetLeavesTheBlockIdle : Prop :=
  State.reset.stage = .idle ∧ State.reset.S = 0 ∧ State.reset.F = none ∧ State.reset.VALID = 0 ∧
    State.reset.ERR = 0 ∧ State.reset.M = none ∧
    readMeasurement State.reset = .fault .measurementHoldsNoValue ∧
    State.reset.REG = pinRegistry Config.registryContents ∧ registryAdmissible State.reset.REG = true

/-- The invariant holds at reset, whatever the open contents of the registry and the open width of `LEN` are. That `LEN` fits
its width there rests on the zero that log entry 1 chooses, since R43 gives `LEN` no value at reset. -/
def Obligations.ResetMeetsTheInvariant : Prop := State.reset.Inv

/-- Every step keeps the invariant: the registry stays admissible, `VALID` says whether `M` holds a record, `ERR` is never
the unused code, a record's numbers fit its operation and are in range, and `LEN` fits its width (R24, R34, R38, R124, R174,
R216, R230). That `LEN` fits also for a count that its width cannot hold is the model's choice (log entry 20). -/
def Obligations.StepKeepsTheInvariant : Prop :=
  ∀ s t : State, s.Inv → step s = .next t → t.Inv

/-- Every step of the Packet Parser keeps the invariant, from every stage of a DECODE. -/
def Obligations.ParserStepKeepsTheInvariant : Prop :=
  ∀ s : State, s.Inv → (tick s).Inv

/-- Pinning gives an admissible registry, and leaves an admissible one as it is: the model's registry ranges over exactly the
admissible ones (R124, R129). The construction is the model's (log entry 5). -/
def Obligations.PinnedRegistriesAreTheAdmissibleOnes : Prop :=
  (∀ R : Registry, registryAdmissible (pinRegistry R) = true) ∧
    ∀ R : Registry, registryAdmissible R = true → pinRegistry R = R

/-- A registry is admissible exactly when its present tables have at most 16 descriptors and the pinned facts hold of
codes 0xB, 0x2, 0x4 and 0xA (R124 to R128). -/
def Obligations.AdmissibilityIsTheFourPinnedFacts : Prop :=
  ∀ R : Registry,
    registryAdmissible R = true ↔
      (∀ c e t, registryAt R c = some e → e.rangeTable = some t → t.length ≤ 16) ∧
        (∃ e rest, registryAt R 0xB = some e ∧ e.modeName = "voltage" ∧
          e.rangeTable = some (⟨⟨1, 0⟩, 3, "V"⟩ :: rest)) ∧
        (∃ e, registryAt R 0x2 = some e ∧ e.modeName = "frequency") ∧
        (∃ e, registryAt R 0x4 = some e ∧ e.modeName = "temperature" ∧ e.rangeTable = none) ∧
        registryAt R 0xA = none

/-! Decoding and encoding. -/

/-- Decoding the bytes of a well-formed instruction gives the instruction back, for every row and every value of every
field (R71, R80, R81). -/
def Obligations.DecodeOfEncodeIsTheInstruction : Prop :=
  ∀ i : Instr, i.wellFormed = true → decode (encode i) = .ok i

/-- Encoding what a packet decodes to gives the packet with its ignored bits cleared, and the decoded instruction is
well-formed (R71, R77, R91). -/
def Obligations.EncodeOfDecodeClearsTheIgnoredBits : Prop :=
  ∀ (P : Packet) (i : Instr), decodePacket P = .ok i → i.wellFormed = true ∧ encodePacket i = meaningfulPart P

/-- Every 72-bit word without a fixed-zero bit belongs to exactly one row of the opcode table, the row it decodes to; a
word that belongs to none is the illegal encoding, which aborts with `InvalidStatusBits` (R79, R80, R82). -/
def Obligations.DecoderFollowsTheOpcodeTable : Prop :=
  ∀ W : Word72,
    (∀ i, decodePacket (packetOfWord W) = .ok i →
      (opcodeTable.filter fun row => rowMatches row W).map (·.mnemonic) = [mnemonicOf i]) ∧
    ((opcodeTable.filter fun row => rowMatches row W) = [] ↔
      decodePacket (packetOfWord W) = .error .InvalidStatusBits) ∧
    ((opcodeTable.filter fun row => rowMatches row W) = [] ↔ W.getLsbD 0 = true ∨ W.getLsbD 8 = true)

/-- Words written out from the byte layout decode to the instructions they stand for, one of each family (R71, R80; the
words of 95_test_vectors.md V-S1, V-R4, V-S6, V-R12, V-S5, V-R7). -/
def Obligations.WrittenOutWordsDecode : Prop :=
  decodeTableWord 72 0x00060000000B000008 =
      some (.volt ⟨0, 6, 0, 0, 0, ⟨false, false, false, false, false, false, false, true, false, false⟩⟩) ∧
    decodeTableWord 72 0x000102030402000000 =
      some (.freq ⟨0, 1, 2, 3, 4, ⟨false, false, false, false, false, false, false, false, false, false⟩⟩) ∧
    decodeTableWord 72 0x000005000002080000 =
      some (.duty ⟨0, 0, 5, 0, 0, ⟨true, false, false, false, false, false, false, false, false, false⟩⟩) ∧
    decodeTableWord 72 0x0F0F0F0F0F040F0E02 =
      some (.temp ⟨15, 15, 15, 15, 15, ⟨true, true, true, true, true, true, true, false, false, true⟩⟩) ∧
    decodeTableWord 72 0x00060000000A000008 =
      some (.unreg ⟨0, 6, 0, 0, 0, ⟨false, false, false, false, false, false, false, true, false, false⟩⟩) ∧
    decodeTableWord 72 0x000102030403000002 =
      some (.fn3 ⟨0, 1, 2, 3, 4, ⟨false, false, false, false, false, false, false, false, false, true⟩⟩)

/-! The step. -/

/-- A step of an idle instance whose next input decodes runs the decoded instruction on the state with the packet in the
packet registers, `LEN = 9`, the input taken from the stream and the counter advanced (R200, R202). The stream and the
counter are the model's (log entries 3 and 4). -/
def Obligations.StepRunsTheDecodedInstruction : Prop :=
  ∀ (s : State) (P : Packet) (rest : List (List Byte)) (i : Instr),
    s.stage = .idle → decodePacket P = .ok i →
      step { s with stream := packetBytes P :: rest } =
        exec i { s with P := P, LEN := 9, stream := rest, freeCount := s.freeCount + 1 }

/-- An input that is not 9 bytes aborts with `FramingError` and no byte of it is read: the state after it does not depend on
the bytes, and `LEN` is their count where its width holds it (R24, R58, R201, R231). The model's choices in it: the packet
registers, which R24 leaves unspecified, hold one packet `P` that depends on no byte and no length of the input (log entry
11); a count beyond the width leaves a number other than 9 in `LEN` (log entry 20); the stream and the counter (log entries
3 and 4). -/
def Obligations.WrongLengthAbortsWithFramingError : Prop :=
  ∀ s : State, s.stage = .idle → ∃ (P : Packet) (overlong : Nat), overlong ≠ 9 ∧ overlong < 2 ^ lenWidth ∧
    ∀ (input : List Byte) (rest : List (List Byte)), input.length ≠ 9 →
      step { s with stream := input :: rest } =
        .next (aborted
          { s with
            P := P
            LEN := if input.length < 2 ^ lenWidth then input.length else overlong
            stream := rest
            freeCount := s.freeCount + 1 } 1)

/-- A packet with a fixed-zero bit set aborts with `InvalidStatusBits` whatever its other 70 bits are (R82, R109, R112,
R233). Its code is the spec's decision D12 and what the abort leaves is D13 (R230, R239); the stream and the counter are the
model's (log entries 3 and 4). -/
def Obligations.FixedZeroBitAbortsWithInvalidStatusBits : Prop :=
  ∀ (s : State) (P : Packet) (rest : List (List Byte)),
    s.stage = .idle → P.option1Byte.getLsbD 0 = true ∨ P.option2Byte.getLsbD 0 = true →
      step { s with stream := packetBytes P :: rest } =
        .next (aborted { s with P := P, LEN := 9, stream := rest, freeCount := s.freeCount + 1 } 2)

/-- An idle instance without a further input holds its outputs (R209, R252, R270). That a step without an input is a next
state is the model's choice (log entry 3). -/
def Obligations.StepWithoutInputHoldsTheOutputs : Prop :=
  ∀ s : State, s.stage = .idle → s.stream = [] → step s = .next s

/-- The outcome of a step is that of the function DECODE, `decodeInput`, and the decision tree's, for every input: the errors
in their order, then the record (R206, R208, R238). -/
def Obligations.StepOutcomeFollowsTheDecisionTree : Prop :=
  ∀ (s : State) (input : List Byte) (rest : List (List Byte)), s.stage = .idle →
    ∃ t, step { s with stream := input :: rest } = .next t ∧
      t.lastOutcome = some (decodeInput s.REG s.numerics input) ∧
        decodeInput s.REG s.numerics input = outcomeTree s.REG s.numerics input

/-- After every DECODE exactly one of `VALID = 1` and `ERR ≠ 0` holds; `VALID = 1` comes with a record in `M`, and else `M`
holds no value and its read faults (R34, R44, R207). That the read stops as a fault, where R44 lets a model fault or refuse,
is the model's choice (log entry 9). -/
def Obligations.ExactlyOneStatusAfterEveryDecode : Prop :=
  ∀ (s t : State) (input : List Byte) (rest : List (List Byte)),
    s.stream = input :: rest → step s = .next t →
      ((t.VALID = 1 ∧ t.ERR = 0 ∧ ∃ m, t.M = some m ∧ readMeasurement t = .next m) ∨
        (t.VALID = 0 ∧ t.ERR ≠ 0 ∧ t.ERR ≠ 7 ∧ t.M = none ∧
          readMeasurement t = .fault .measurementHoldsNoValue))

/-- The outcome of a DECODE depends on the input, the registry and the numerics configuration alone: two idle instances that
agree on these, whatever else they hold, leave the same `M`, `VALID` and `ERR` (R20, R206, R242). -/
def Obligations.OutcomeIgnoresEverythingEarlier : Prop :=
  ∀ (s s' t t' : State) (input : List Byte) (rest rest' : List (List Byte)),
    s.REG = s'.REG → s.numerics = s'.numerics → s.stream = input :: rest → s'.stream = input :: rest' →
      step s = .next t → step s' = .next t' → t.M = t'.M ∧ t.VALID = t'.VALID ∧ t.ERR = t'.ERR

/-- Bits 7..4 of every byte have no effect: two inputs that differ only there give the same outcome (R22, R23, R77). That
the three status-bearing bytes' high bits are ignored is the spec's decision D4. -/
def Obligations.IgnoredBitsHaveNoEffect : Prop :=
  ∀ (s t t' : State) (a b : List Byte) (rest : List (List Byte)),
    sameMeaningfulBits a b = true →
      step { s with stream := a :: rest } = .next t → step { s with stream := b :: rest } = .next t' →
        t.M = t'.M ∧ t.VALID = t'.VALID ∧ t.ERR = t'.ERR ∧ t.LEN = t'.LEN

/-- The outcomes of a run over a stream are those of decoding each input alone, in the order presented (R20, R270). -/
def Obligations.RunDecodesEachInputAlone : Prop :=
  ∀ (s : State) (inputs : List (List Byte)), s.stage = .idle →
    runOutcomes inputs.length { s with stream := inputs } =
      inputs.map fun input => some (outcomeTree s.REG s.numerics input)

/-- Reset in the middle of anything leaves the values of R43 and R260: idle, `S = 0`, no flag, `VALID = 0`, `ERR = 0`, `M`
without a value, so no outcome, and the registry unchanged; and a run after it observes what it would have observed without
it (R260, R261). That the operation is provided at all, and that it keeps the caller's stream, the numerics configuration
and the counter, is the model's choice (log entry 18). -/
def Obligations.ResetIsNotNeededBetweenPackets : Prop :=
  ∀ s : State,
    s.resetBlock.stage = .idle ∧ s.resetBlock.S = 0 ∧ s.resetBlock.F = none ∧ s.resetBlock.VALID = 0 ∧
      s.resetBlock.ERR = 0 ∧ s.resetBlock.M = none ∧ s.resetBlock.lastOutcome = none ∧ s.resetBlock.REG = s.REG ∧
      (s.stage = .idle → ∀ n, n ≤ s.stream.length → runOutcomes n s.resetBlock = runOutcomes n s)

/-! The rows. -/

/-- `VOLT` emits the record of mode "voltage" with the resolved descriptor, JUDGE ignored; at range index 0 the descriptor
is `(1, 3, "V")`. Nothing but `M`, `VALID` and `ERR` changes (R133, R205). -/
def Obligations.VoltEmitsTheVoltageRecord : Prop :=
  ∀ (s : State) (p : Fields) (e : FunctionEntry) (table : List RangeDescriptor) (rd : RangeDescriptor),
    s.stage = .idle → registryAdmissible s.REG = true → registryAt s.REG 0xB = some e →
      e.rangeTable = some table → table[p.r.toNat]? = some rd → (p.flags.AC && p.flags.DC) = false →
        (p.r = 0 → rd = ⟨⟨1, 0⟩, 3, "V"⟩) ∧
          exec (.volt p) s = .next (emitted s (recordOf s.numerics p "voltage" e.baseUnit rd))

/-- `FREQ` (JUDGE clear) emits the record of mode "frequency" with the registry's descriptor and base unit (R134). -/
def Obligations.FreqEmitsTheFrequencyRecord : Prop :=
  ∀ (s : State) (p : Fields) (e : FunctionEntry) (table : List RangeDescriptor) (rd : RangeDescriptor),
    s.stage = .idle → registryAdmissible s.REG = true → p.flags.JUDGE = false → registryAt s.REG 0x2 = some e →
      e.rangeTable = some table → table[p.r.toNat]? = some rd → (p.flags.AC && p.flags.DC) = false →
        exec (.freq p) s = .next (emitted s (recordOf s.numerics p "frequency" e.baseUnit rd))

/-- `DUTY` (JUDGE set) emits the record of mode "duty_cycle", unit "%" and the forced descriptor `(1, 1, "%")`, for every
range index inside the frequency table (R135, R150). -/
def Obligations.DutyEmitsTheForcedRecord : Prop :=
  ∀ (s : State) (p : Fields) (e : FunctionEntry) (table : List RangeDescriptor),
    s.stage = .idle → registryAdmissible s.REG = true → p.flags.JUDGE = true → registryAt s.REG 0x2 = some e →
      e.rangeTable = some table → p.r.toNat < table.length → (p.flags.AC && p.flags.DC) = false →
        exec (.duty p) s = .next (emitted s (recordOf s.numerics p "duty_cycle" "%" ⟨⟨1, 0⟩, 1, "%"⟩))

/-- Among duty-cycle packets that pass step 3 the range index does not matter (R135, R151 b, 90_conflicts.md C1). -/
def Obligations.DutyDoesNotDependOnTheRangeIndex : Prop :=
  ∀ (s : State) (p : Fields) (r : Nibble) (e : FunctionEntry) (table : List RangeDescriptor),
    registryAdmissible s.REG = true → p.flags.JUDGE = true → registryAt s.REG 0x2 = some e →
      e.rangeTable = some table → p.r.toNat < table.length → r.toNat < table.length →
        exec (.duty { p with r := r }) s = exec (.duty p) s

/-- `TEMP` aborts with `UnsupportedMode`, code 6, for every range index, digit and flag (R136, R239; decision D5). -/
def Obligations.TempAbortsWithUnsupportedMode : Prop :=
  ∀ (s : State) (p : Fields), s.stage = .idle → registryAdmissible s.REG = true →
    exec (.temp p) s = .next (aborted s 6)

/-- `UNREG` aborts with `UnknownFunction`, code 3, for every value of its fields (R137, R239). -/
def Obligations.UnregAbortsWithUnknownFunction : Prop :=
  ∀ (s : State) (p : Fields), s.stage = .idle → registryAdmissible s.REG = true →
    exec (.unreg p) s = .next (aborted s 3)

/-- The rows FN0, FN1, FN3, FN5, FN6, FN7, FN8, FN9, FNC, FND, FNE and FNF emit the record of what the registry holds at
their code, with the duty-cycle override where the mode name is "frequency" and JUDGE is set (R138, R139). -/
def Obligations.ParameterRowsEmitTheirRecord : Prop :=
  ∀ row ∈ parameterRows, ∀ (s : State) (p : Fields) (e : FunctionEntry) (table : List RangeDescriptor)
    (rd : RangeDescriptor),
    s.stage = .idle → registryAt s.REG row.2 = some e → e.rangeTable = some table → table[p.r.toNat]? = some rd →
      (p.flags.AC && p.flags.DC) = false →
        exec (row.1 p) s = .next (emitted s (rowRecord s.numerics p e rd))

/-- Every row whose code the registry leaves unregistered aborts with `UnknownFunction`, code 3 (R130, R234). -/
def Obligations.UnregisteredCodeAborts : Prop :=
  ∀ row ∈ allRows, ∀ (s : State) (p : Fields), s.stage = .idle → registryAt s.REG row.2 = none →
    exec (row.1 p) s = .next (aborted s 3)

/-- Every row whose entry has no range table aborts with `UnsupportedMode`, code 6, whatever its fields (R132, R237;
decision D5). -/
def Obligations.MissingRangeTableAborts : Prop :=
  ∀ row ∈ allRows, ∀ (s : State) (p : Fields) (e : FunctionEntry), s.stage = .idle →
    registryAt s.REG row.2 = some e → e.rangeTable = none → exec (row.1 p) s = .next (aborted s 6)

/-- Every row whose range index is not in its entry's table aborts with `UnknownRange`, code 4, a duty-cycle packet too
(R131, R235, 90_conflicts.md C1). -/
def Obligations.RangeIndexBeyondTheTableAborts : Prop :=
  ∀ row ∈ allRows, ∀ (s : State) (p : Fields) (e : FunctionEntry) (table : List RangeDescriptor), s.stage = .idle →
    registryAt s.REG row.2 = some e → e.rangeTable = some table → table.length ≤ p.r.toNat →
      exec (row.1 p) s = .next (aborted s 4)

/-- Every row that passes step 3 with AC and DC both set aborts with `ConflictingCurrentType`, code 5, in every mode
(R152, R153, R236). -/
def Obligations.BothCurrentTypesAbort : Prop :=
  ∀ row ∈ allRows, ∀ (s : State) (p : Fields) (e : FunctionEntry) (table : List RangeDescriptor), s.stage = .idle →
    registryAt s.REG row.2 = some e → e.rangeTable = some table → p.r.toNat < table.length →
      p.flags.AC = true → p.flags.DC = true → exec (row.1 p) s = .next (aborted s 5)

/-- Every instruction leaves the packet registers, `LEN`, the registry, the numerics configuration, the caller's stream and
the counter as they are, and ends idle: it writes `M`, `VALID` and `ERR` and nothing else (R61, R200, R205, R239). -/
def Obligations.InstructionsWriteOnlyTheOutputs : Prop :=
  ∀ (i : Instr) (s t : State), exec i s = .next t →
    s.stage = .idle ∧ t = { s with M := t.M, VALID := t.VALID, ERR := t.ERR } ∧
      (∀ k, packetByte t.P k = packetByte s.P k) ∧ ∀ c, registryAt t.REG c = registryAt s.REG c

/-- A request, a step or an instruction while a DECODE is in progress is refused, and so is a change of the input; an idle
instance refuses none of them (R265, R266; decision D21). The model's choices in it: the refusals (log entry 7); that a step
without a further input is a next state (log entry 3); that a request before any input is one (log entry 1). -/
def Obligations.BusyInstanceRefusesRequests : Prop :=
  ∀ (s : State) (i : Instr) (input : List Byte),
    (s.stage ≠ .idle → exec i s = .refused .decodeInProgress ∧ step s = .refused .decodeInProgress ∧
      request s = .refused .decodeInProgress ∧ present s input = .refused .inputHeldDuringDecode) ∧
    (s.stage = .idle → (∃ t, exec i s = .next t) ∧ (∃ t, step s = .next t) ∧ (∃ t, request s = .next t) ∧
      ∃ t, present s input = .next t)

/-! Inside a DECODE. -/

/-- The whole DECODE that `step` makes at once is the twelve steps of the Packet Parser, one after the other, on the
presented input (R25, R202, R269). The atomic step beside the single steps is a reading of the spec (log entry 6). -/
def Obligations.StepIsTheTwelveParserSteps : Prop :=
  ∀ (s : State) (input : List Byte) (rest : List (List Byte)), s.stage = .idle →
    ∃ loaded started, present { s with stream := rest } input = .next loaded ∧ request loaded = .next started ∧
      step { s with stream := input :: rest } = .next (ticks 12 started)

/-- Every step of the Packet Parser that does not end the DECODE advances `S` by exactly 1; the step that emits is step 11;
an abort happens only at the step that raises its kind, and steps 4 and 6 to 11 never abort (R25, R189, R230). -/
def Obligations.ParserStepAdvancesByOneOrEnds : Prop :=
  ∀ s : State, s.stage ≠ .idle →
    ((tick s).stage ≠ .idle ∧ (tick s).S.val = s.S.val + 1) ∨
      (s.S = 11 ∧ ∃ m, tick s = s.emit m) ∨
        ∃ k, tick s = s.abort k ∧
          ((s.S, k) ∈ [((0 : Fin 12), ErrorKind.FramingError), (1, .InvalidStatusBits), (2, .UnknownFunction),
            (3, .UnknownRange), (3, .UnsupportedMode), (5, .ConflictingCurrentType)])

/-- Each error is raised at its step exactly when its cause holds: a length other than 9 at step 0, a fixed-zero bit of 1 at
step 1, an unregistered code at step 2, at step 3 an absent range table or a range index not in the table, AC and DC both
set at step 5 (R231 as to the length, R233 to R237; the abort of an absent table is decision D5). -/
def Obligations.ErrorsAreRaisedExactlyAtTheirCauses : Prop :=
  ∀ s : State,
    (s.stage = .framing → (tick s = s.abort .FramingError ↔ s.LEN ≠ 9)) ∧
    (s.stage = .status → (tick s = s.abort .InvalidStatusBits ↔
      s.P.option1Byte.getLsbD 0 = true ∨ s.P.option2Byte.getLsbD 0 = true)) ∧
    (∀ F, s.stage = .function F → (tick s = s.abort .UnknownFunction ↔
      registryAt s.REG (s.P.functionByte.setWidth 4) = none)) ∧
    (∀ F e, s.stage = .range F e → (tick s = s.abort .UnknownRange ↔
      ∃ table, e.rangeTable = some table ∧ table.length ≤ (s.P.rangeByte.setWidth 4).toNat)) ∧
    (∀ F e, s.stage = .range F e → (tick s = s.abort .UnsupportedMode ↔ e.rangeTable = none)) ∧
    ∀ F e w, s.stage = .current F e w → (tick s = s.abort .ConflictingCurrentType ↔ F.AC = true ∧ F.DC = true)

/-- No step before the end of a DECODE writes anything but the stage: the caller sees the outputs of the DECODE before it
(R61, R240, R267). -/
def Obligations.ParserStepsBeforeTheEndShowNothing : Prop :=
  ∀ s : State, (tick s).stage ≠ .idle → tick s = { s with stage := (tick s).stage }

/-- Step 1 writes the ten flags, each `true` exactly when its bit of the layout table is 1, and no later step of the DECODE
changes them (R26, R27, R108). -/
def Obligations.FlagsAreWrittenOnceByStepOne : Prop :=
  ∀ s : State,
    (s.stage = .status → fixedZeroBitSet s.P = false → tick s = s.enter (.function (layoutFlags s.P))) ∧
      (∀ F, s.F = some F → (tick s).F = some F ∨ (tick s).stage = .idle)

/-! The Bit-Flag Decoder. -/

/-- `BFD(v, T)`: it fails exactly when a literal slot differs from its bit, bit `i` against slot `T[3 - i]`; else its
mapping records the bit of every named slot under its name and nothing else (R100 to R103). -/
def Obligations.BfdMatchesSlotsAgainstBits : Prop :=
  ∀ (v : Byte) (T : Template),
    (bfd v T = .error .templateMismatch ↔
      ∃ (i : Fin 4) (b : Bool), templateSlot T i.rev = .literal b ∧ v.getLsbD i.val ≠ b) ∧
    ∀ m, bfd v T = .ok m →
      (∀ (i : Fin 4) (n : FlagName), templateSlot T i.rev = .name n → m.lookup n = some (v.getLsbD i.val)) ∧
        ∀ n : FlagName, (∀ j : Fin 4, templateSlot T j ≠ .name n) → m.lookup n = none

/-- `BFD` reads only `v[3:0]` (R104, decision D4). -/
def Obligations.BfdReadsTheLowNibbleOnly : Prop :=
  ∀ (v w : Byte) (T : Template), v.setWidth 4 = w.setWidth 4 → bfd v T = bfd w T

/-! The registry's lookups. -/

/-- `FLOOKUP` returns the stored entry or fails with `UnknownFunction`; `RLOOKUP` returns the stored descriptor, 0-based, or
fails with `UnknownRange` when the index is not below the table's length (R120, R121, R122). -/
def Obligations.LookupsReturnTheStoredValue : Prop :=
  (∀ (REG : Registry) (c : Nibble),
    (∀ e, flookup REG c = .ok e ↔ registryAt REG c = some e) ∧
      (flookup REG c = .error .UnknownFunction ↔ registryAt REG c = none)) ∧
  ∀ (table : List RangeDescriptor) (r : Nibble),
    (∀ rd, rlookup table r = .ok rd ↔ ∃ h : r.toNat < table.length, table[r.toNat] = rd) ∧
      (rlookup table r = .error .UnknownRange ↔ table.length ≤ r.toNat)

/-! The numeric converter. -/

/-- With four decimal digits the map from digit patterns to `U` is a bijection onto 0..9999; with any nibbles `U` is at most
16665, which 15 bits hold (R173). -/
def Obligations.DecimalDigitsAreABijection : Prop :=
  (∀ d0 d1 d2 d3 : Nibble, displayMagnitude d0 d1 d2 d3 ≤ 16665 ∧ displayMagnitude d0 d1 d2 d3 < 2 ^ 15) ∧
    displayMagnitude 15 15 15 15 = 16665 ∧
    ∀ n : Nat, n ≤ 9999 ↔
      ∃! d : Nibble × Nibble × Nibble × Nibble,
        (d.1.toNat ≤ 9 ∧ d.2.1.toNat ≤ 9 ∧ d.2.2.1.toNat ≤ 9 ∧ d.2.2.2.toNat ≤ 9) ∧
          displayMagnitude d.1 d.2.1 d.2.2.1 d.2.2.2 = n

/-- `N` lies in `-16665 .. 16665`, with decimal digits in `-9999 .. 9999`, and a 16-bit two's-complement register holds
it (R174). -/
def Obligations.DisplayIntegerFitsItsRegister : Prop :=
  ∀ (d0 d1 d2 d3 : Nibble) (F : Flags),
    (-16665 ≤ stepEight d0 d1 d2 d3 F ∧ stepEight d0 d1 d2 d3 F ≤ 16665) ∧
      (d0.toNat ≤ 9 → d1.toNat ≤ 9 → d2.toNat ≤ 9 → d3.toNat ≤ 9 →
        -9999 ≤ stepEight d0 d1 d2 d3 F ∧ stepEight d0 d1 d2 d3 F ≤ 9999) ∧
      (BitVec.ofInt 16 (stepEight d0 d1 d2 d3 F)).toInt = stepEight d0 d1 d2 d3 F ∧
      stepEight d0 d1 d2 d3 F ≠ -32768

/-- Whenever a DECODE emits a display value, its integer is the `N` of the packet's digits and SIGN (the digit sum, negated
exactly when SIGN is set, R175), `display_value * 10^p` is that `N`, its magnitude is the four-digit reconstruction, and it
is negative only if SIGN is set (R179). -/
def Obligations.DisplayValueRoundTrips : Prop :=
  ∀ (REG : Registry) (fmt : FloatFormat) (P : Packet) (m : Measurement) (v : DisplayValue),
    decodeInput REG fmt (packetBytes P) = .ok m → m.displayValue = some v →
      v.N = displayInteger (layoutFields P) ∧
        decimalNumber (displayDecimal v) * 10 ^ v.p.val = (v.N : Rat) ∧
        v.N.natAbs = 1000 * (P.digit0.toNat % 16) + 100 * (P.digit1.toNat % 16) + 10 * (P.digit2.toNat % 16) +
          P.digit3.toNat % 16 ∧
        (v.N < 0 → P.statusByte.getLsbD 2 = true)

/-- For every packet whose DECODE emits a record, OL set leaves both numbers absent and the operation "overload", OL clear
leaves both present and the operation "normal" (R154, R186, R216, 90_conflicts.md C3). -/
def Obligations.OverloadMasksBothNumbers : Prop :=
  ∀ (REG : Registry) (fmt : FloatFormat) (P : Packet) (m : Measurement),
    decodeInput REG fmt (packetBytes P) = .ok m →
      (P.statusByte.getLsbD 0 = true → m.value = none ∧ m.displayValue = none ∧ m.operation = .overload) ∧
        (P.statusByte.getLsbD 0 = false →
          m.value.isSome = true ∧ m.displayValue.isSome = true ∧ m.operation = .normal)

/-- Setting OL in a packet changes no field but the two numbers and the operation, and no abort (R160, R187). -/
def Obligations.OverloadChangesNothingElse : Prop :=
  ∀ (REG : Registry) (fmt : FloatFormat) (c : Nibble) (p : Fields),
    measure REG fmt c { p with flags := { p.flags with OL := true } } =
      (measure REG fmt c { p with flags := { p.flags with OL := false } }).map fun m =>
        { m with value := none, displayValue := none, operation := .overload }

/-- SIGN with all digits zero gives plain zero: the display integer is 0, and `fl` of it is the positive zero of binary64
(R176, decision D11). -/
def Obligations.SignOnZeroIsPlainZero : Prop :=
  ∀ (F : Flags) (e : Int), stepEight 0 0 0 0 F = 0 ∧ flOf .binary64 ⟨0, e⟩ = 0

/-- `fl` depends on the number alone, not on how the decimal is written, in every numerics configuration (R183). -/
def Obligations.ConversionDependsOnTheNumberAlone : Prop :=
  ∀ (fmt : FloatFormat) (x y : Decimal), decimalNumber x = decimalNumber y → flOf fmt x = flOf fmt y

/-- `fl` of binary64 rounds to nearest, ties to even: below the overflow bound no finite image is nearer to the decimal
(R181, R183; the format is the spec's default from general knowledge, 93_implementation_defined.md G1). -/
def Obligations.Binary64ConversionRoundsToNearest : Prop :=
  ∀ x : Decimal, |decimalNumber x| < overflowBound → RoundsTo (decimalNumber x) (flOf .binary64 x)

/-- `*fl` of binary64 rounds the exact product of two finite numbers once, to nearest, ties to even, below the overflow
bound (R181, R183). -/
def Obligations.Binary64ProductRoundsToNearest : Prop :=
  ∀ a b : FlNumber, isFinite a = true → isFinite b = true → |numberOfImage a * numberOfImage b| < overflowBound →
    RoundsTo (numberOfImage a * numberOfImage b) (flMul .binary64 a b)

/-- With multiplier 1 the value is `fl(N / 10^p)`, a single rounding; with `p = 0` as well it is `N` exactly (R184 a, b). -/
def Obligations.MultiplierOneIsASingleRounding : Prop :=
  (∀ N : Int, ∀ p : Fin 4, -16665 ≤ N → N ≤ 16665 →
    scaledValue .binary64 ⟨N, p⟩ ⟨1, 0⟩ = flOf .binary64 ⟨N, -(p.val : Int)⟩) ∧
  ∀ N : Int, -16665 ≤ N → N ≤ 16665 → numberOfImage (scaledValue .binary64 ⟨N, 0⟩ ⟨1, 0⟩) = (N : Rat)

/-- With a multiplier that is zero or between `10^-290` and `10^290` in magnitude, the value is a finite number that is no NaN
and no subnormal, has the sign of `N * m`, and is zero exactly when `N = 0` or `m = 0` (R181, R184 c, U19). -/
def Obligations.BoundedMultipliersGiveOrdinaryValues : Prop :=
  ∀ (N : Int) (p : Fin 4) (m : Decimal), -16665 ≤ N → N ≤ 16665 →
    (m.coefficient = 0 ∨ ((10 : Rat) ^ (-290 : Int) ≤ |decimalNumber m| ∧ |decimalNumber m| ≤ (10 : Rat) ^ (290 : Int))) →
      isFinite (scaledValue .binary64 ⟨N, p⟩ m) = true ∧
        (isZero (scaledValue .binary64 ⟨N, p⟩ m) = true ↔ N = 0 ∨ m.coefficient = 0) ∧
        (isZero (scaledValue .binary64 ⟨N, p⟩ m) = false →
          exponentField (scaledValue .binary64 ⟨N, p⟩ m) ≠ 0 ∧
            signBit (scaledValue .binary64 ⟨N, p⟩ m) = decide (N * m.coefficient < 0))

/-! The selectors and the outputs. -/

/-- The flag-derived fields of every record: current type, operation, range mode, peak with MAX over MIN, hold and battery,
from their bits of the packet (R152, R154 to R158). -/
def Obligations.SelectorsFollowTheirFlags : Prop :=
  ∀ (REG : Registry) (fmt : FloatFormat) (P : Packet) (m : Measurement),
    decodeInput REG fmt (packetBytes P) = .ok m →
      (P.option2Byte.getLsbD 2 && P.option2Byte.getLsbD 3) = false ∧
        m.current = (if P.option2Byte.getLsbD 3 then some .DC else if P.option2Byte.getLsbD 2 then some .AC else none) ∧
        m.operation = (if P.statusByte.getLsbD 0 then .overload else .normal) ∧
        m.rangeMode = (if P.option2Byte.getLsbD 1 then .auto else .manual) ∧
        m.peak = (if P.option1Byte.getLsbD 2 then some .max else if P.option1Byte.getLsbD 1 then some .min else none) ∧
        m.hold = P.option1Byte.getLsbD 3 ∧ m.batteryLow = P.statusByte.getLsbD 1

/-- Every packet with AC and DC both set fails (R153, R216, 90_conflicts.md C2). -/
def Obligations.BothCurrentTypesAlwaysFail : Prop :=
  ∀ (s t : State) (P : Packet) (rest : List (List Byte)),
    P.option2Byte.getLsbD 2 = true → P.option2Byte.getLsbD 3 = true →
      step { s with stream := packetBytes P :: rest } = .next t → t.VALID = 0 ∧ t.ERR ≠ 0 ∧ t.M = none

/-- An abort, at whatever stage, writes the kind's code, `VALID = 0` and no value in `M`, ends the DECODE, and changes nothing
else; the codes are the table's, and each code names its kind again (R230, R239; decisions D12, D13). -/
def Obligations.AbortRecordsTheErrorCode : Prop :=
  (∀ (s : State) (k : ErrorKind), s.abort k = aborted { s with stage := .idle } (errorCode k)) ∧
    (∀ k : ErrorKind, errorOfCode (errorCode k) = some k) ∧ errorOfCode 0 = none ∧ errorOfCode 7 = none ∧
    errorCode .FramingError = 1 ∧ errorCode .InvalidStatusBits = 2 ∧ errorCode .UnknownFunction = 3 ∧
    errorCode .UnknownRange = 4 ∧ errorCode .ConflictingCurrentType = 5 ∧ errorCode .UnsupportedMode = 6

/-- `M` may be read only while `VALID = 1` (R44, R267). That a read without a record stops as a fault, where R44 lets a model
fault or refuse and U10 says refuse, is the model's choice (log entry 9), and so are the free bits of the register image
(log entry 12). -/
def Obligations.RecordIsReadOnlyWhileValid : Prop :=
  ∀ s : State,
    (s.VALID = 0 → readMeasurement s = .fault .measurementHoldsNoValue ∧
      readRegisters s = .fault .measurementHoldsNoValue) ∧
    (∀ m, s.VALID = 1 → s.M = some m → readMeasurement s = .next m ∧
      readRegisters s = .next (imageOf s.freeCount m))

/-- The register encoding of a record gives the record back, for every record a DECODE can emit, whatever the free bits of an
absent number are; encoding 3 of `M.current` or `M.peak` is refused (R33, U12, U13; log entry 12). -/
def Obligations.RegisterImageGivesTheRecordBack : Prop :=
  (∀ (n : Nat) (m : Measurement), recordFits m = true → measurementOfImage (imageOf n m) = .next m) ∧
    ∀ g : RegisterImage, g.current = 3 ∨ g.peak = 3 → measurementOfImage g = .refused .reservedEncoding

/-- The delimited-field adapter renders eight fields in the fixed order; `value` is the number's text for a normal record with
a number and is empty whenever the operation is not "normal" or the number is absent; booleans render as "1" or "0", absent
values as the empty string (R214). The number's text `Config.valueText` is a free value, since its format is not stated (N13;
log entry 15). -/
def Obligations.DelimitedFieldsKeepTheirOrder : Prop :=
  ∀ m : Measurement,
    delimitedFields m =
        [match m.operation, m.value with
          | .normal, some v => Config.valueText v
          | _, _ => "",
          m.unit, m.mode,
          match m.current with | none => "" | some .AC => "AC" | some .DC => "DC",
          match m.operation with | .normal => "normal" | .overload => "overload",
          match m.peak with | none => "" | some .max => "max" | some .min => "min",
          if m.batteryLow then "1" else "0", if m.hold then "1" else "0"] ∧
      (m.operation ≠ .normal ∨ m.value = none → (delimitedFields m).head? = some "")

/-- The human-readable adapter renders the display value and its unit for a normal record and the overload line for an
overload, with the battery warning appended when the battery is low (R215). Which form is used
follows the operation, and `displayText` prints the notation of R178; both are the model's choice (log entry 15). -/
def Obligations.HumanLineHasTwoForms : Prop :=
  ∀ (m : Measurement) (v : DisplayValue),
    (m.operation = .normal → m.displayValue = some v →
      humanLine m = displayText v ++ " " ++ m.displayUnit ++ (if m.batteryLow then Config.batteryWarning else "")) ∧
    (m.operation = .overload →
      humanLine m = "-, the measurement is overloaded!" ++ (if m.batteryLow then Config.batteryWarning else ""))

/-- Scenario 1 of the source, for every admissible registry under binary64: the step on its nine bytes emits mode "voltage",
display value 6.000 V, value 6.0, DC (R125, R133, R183). -/
def Obligations.ScenarioOneMeasuresSixVolts : Prop :=
  ∀ (s : State) (rest : List (List Byte)),
    s.stage = .idle → registryAdmissible s.REG = true → s.numerics = .binary64 →
      ∃ t m, step { s with stream := [0x00, 6, 0, 0, 0, 0x0b, 0x00, 0x00, 0x08] :: rest } = .next t ∧
        readMeasurement t = .next m ∧ m.mode = "voltage" ∧ m.displayValue = some ⟨6000, 3⟩ ∧ m.displayUnit = "V" ∧
        m.value = some 0x4018000000000000#64 ∧ m.current = some .DC ∧ m.hold = false ∧ m.rangeMode = .manual ∧
        m.operation = .normal ∧ m.batteryLow = false
end

