-- ==== Sys2Proof/Laws/Flags.lean ====
section
/-! SUPPORT. What the operand forms, the Bit-Flag Decoder and step 1 answer, said once. -/

namespace Sys2Proof.Machine

@[simp] theorem lo4_byteOfNibble (n : Nibble) : lo4 (byteOfNibble n) = n := by
  apply BitVec.eq_of_toNat_eq
  simp only [lo4, byteOfNibble, BitVec.extractLsb'_toNat, BitVec.toNat_setWidth]
  omega

theorem slotDecode_name (n : FlagName) (b : Bool) : slotDecode (.name n) b = .ok [(n, b)] := rfl

theorem slotDecode_literal (l b : Bool) :
    slotDecode (.literal l) b = if b = l then .ok [] else .error .templateMismatch := rfl

/-- Step 1, whole: it aborts exactly when a fixed-zero bit is 1, and else the ten flags are the ten bits (R105 to
R109). -/
theorem stepOne_eq (P : Packet) :
    stepOne P =
      if P.option1Byte.getLsbD 0 || P.option2Byte.getLsbD 0 then .error .InvalidStatusBits
      else .ok
        { JUDGE := P.statusByte.getLsbD 3, SIGN := P.statusByte.getLsbD 2, BATT := P.statusByte.getLsbD 1,
          OL := P.statusByte.getLsbD 0, HOLD := P.option1Byte.getLsbD 3, MAX := P.option1Byte.getLsbD 2,
          MIN := P.option1Byte.getLsbD 1, DC := P.option2Byte.getLsbD 3, AC := P.option2Byte.getLsbD 2,
          AUTO := P.option2Byte.getLsbD 1 } := by
  unfold stepOne bfd templateStatus templateOpt1 templateOpt2
  simp only [slotDecode_name, slotDecode_literal]
  generalize P.option1Byte.getLsbD 0 = a
  generalize P.option2Byte.getLsbD 0 = b
  cases a <;> cases b <;> rfl

/-- A packet that step 1 passes decodes to the row of its function code, and no other error arises (R79, R92). -/
theorem decodePacket_eq (P : Packet) :
    decodePacket P = (stepOne P).map fun F => instrOf (functionCode P) (fieldsOf P F) := by
  unfold decodePacket
  cases stepOne P <;> rfl

/-- Nine bytes are the packet of those bytes. -/
theorem packetOf_packetBytes (P : Packet) : packetOf (packetBytes P) = some P := rfl

/-- A packet has nine bytes. -/
theorem packetBytes_length (P : Packet) : (packetBytes P).length = 9 := rfl

/-- An input is a packet exactly when it has nine bytes (R58). -/
theorem packetOf_isSome (b : List Byte) : (packetOf b).isSome = decide (b.length = 9) := by
  unfold packetOf
  split
  · rfl
  · rename_i h
    symm
    simp only [Option.isSome_none, decide_eq_false_iff_not]
    intro hl
    match b, hl with
    | [b0, b1, b2, b3, b4, b5, b6, b7, b8], _ => exact h b0 b1 b2 b3 b4 b5 b6 b7 b8 rfl

end Sys2Proof.Machine
end

