-- ==== Sys2Proof/Laws/State.lean ====
section
/-! SUPPORT. One lemma per field per state update, all true by rfl, so that no later proof unfolds a record update. -/

namespace Sys2Proof.Machine

@[simp] theorem State.abort_P (s : State) (k : ErrorKind) : (s.abort k).P = s.P := rfl
@[simp] theorem State.abort_LEN (s : State) (k : ErrorKind) : (s.abort k).LEN = s.LEN := rfl
@[simp] theorem State.abort_stage (s : State) (k : ErrorKind) : (s.abort k).stage = .idle := rfl
@[simp] theorem State.abort_M (s : State) (k : ErrorKind) : (s.abort k).M = none := rfl
@[simp] theorem State.abort_VALID (s : State) (k : ErrorKind) : (s.abort k).VALID = 0 := rfl
@[simp] theorem State.abort_ERR (s : State) (k : ErrorKind) : (s.abort k).ERR = errorCode k := rfl
@[simp] theorem State.abort_REG (s : State) (k : ErrorKind) : (s.abort k).REG = s.REG := rfl
@[simp] theorem State.abort_numerics (s : State) (k : ErrorKind) : (s.abort k).numerics = s.numerics := rfl
@[simp] theorem State.abort_stream (s : State) (k : ErrorKind) : (s.abort k).stream = s.stream := rfl
@[simp] theorem State.abort_freeCount (s : State) (k : ErrorKind) : (s.abort k).freeCount = s.freeCount := rfl

@[simp] theorem State.emit_P (s : State) (m : Measurement) : (s.emit m).P = s.P := rfl
@[simp] theorem State.emit_LEN (s : State) (m : Measurement) : (s.emit m).LEN = s.LEN := rfl
@[simp] theorem State.emit_stage (s : State) (m : Measurement) : (s.emit m).stage = .idle := rfl
@[simp] theorem State.emit_M (s : State) (m : Measurement) : (s.emit m).M = some m := rfl
@[simp] theorem State.emit_VALID (s : State) (m : Measurement) : (s.emit m).VALID = 1 := rfl
@[simp] theorem State.emit_ERR (s : State) (m : Measurement) : (s.emit m).ERR = 0 := rfl
@[simp] theorem State.emit_REG (s : State) (m : Measurement) : (s.emit m).REG = s.REG := rfl
@[simp] theorem State.emit_numerics (s : State) (m : Measurement) : (s.emit m).numerics = s.numerics := rfl
@[simp] theorem State.emit_stream (s : State) (m : Measurement) : (s.emit m).stream = s.stream := rfl
@[simp] theorem State.emit_freeCount (s : State) (m : Measurement) : (s.emit m).freeCount = s.freeCount := rfl

@[simp] theorem State.load_P (s : State) (b : List Byte) : (s.load b).P = (packetOf b).getD (Config.unspecifiedPacket s.freeCount) := rfl
@[simp] theorem State.load_LEN (s : State) (b : List Byte) : (s.load b).LEN = presentedLength s.freeCount b.length := rfl
@[simp] theorem State.load_stage (s : State) (b : List Byte) : (s.load b).stage = s.stage := rfl
@[simp] theorem State.load_M (s : State) (b : List Byte) : (s.load b).M = s.M := rfl
@[simp] theorem State.load_VALID (s : State) (b : List Byte) : (s.load b).VALID = s.VALID := rfl
@[simp] theorem State.load_ERR (s : State) (b : List Byte) : (s.load b).ERR = s.ERR := rfl
@[simp] theorem State.load_REG (s : State) (b : List Byte) : (s.load b).REG = s.REG := rfl
@[simp] theorem State.load_numerics (s : State) (b : List Byte) : (s.load b).numerics = s.numerics := rfl
@[simp] theorem State.load_stream (s : State) (b : List Byte) : (s.load b).stream = s.stream := rfl
@[simp] theorem State.load_freeCount (s : State) (b : List Byte) : (s.load b).freeCount = s.freeCount + 1 := rfl

@[simp] theorem State.resetBlock_P (s : State) : (s.resetBlock).P = ⟨0, 0, 0, 0, 0, 0, 0, 0, 0⟩ := rfl
@[simp] theorem State.resetBlock_LEN (s : State) : (s.resetBlock).LEN = 0 := rfl
@[simp] theorem State.resetBlock_stage (s : State) : (s.resetBlock).stage = .idle := rfl
@[simp] theorem State.resetBlock_M (s : State) : (s.resetBlock).M = none := rfl
@[simp] theorem State.resetBlock_VALID (s : State) : (s.resetBlock).VALID = 0 := rfl
@[simp] theorem State.resetBlock_ERR (s : State) : (s.resetBlock).ERR = 0 := rfl
@[simp] theorem State.resetBlock_REG (s : State) : (s.resetBlock).REG = s.REG := rfl
@[simp] theorem State.resetBlock_numerics (s : State) : (s.resetBlock).numerics = s.numerics := rfl
@[simp] theorem State.resetBlock_stream (s : State) : (s.resetBlock).stream = s.stream := rfl
@[simp] theorem State.resetBlock_freeCount (s : State) : (s.resetBlock).freeCount = s.freeCount := rfl

@[simp] theorem State.withFetchWord_P (s : State) (nbits w : Nat) : (s.withFetchWord nbits w).P = s.P := rfl
@[simp] theorem State.withFetchWord_LEN (s : State) (nbits w : Nat) : (s.withFetchWord nbits w).LEN = s.LEN := rfl
@[simp] theorem State.withFetchWord_stage (s : State) (nbits w : Nat) : (s.withFetchWord nbits w).stage = .idle := rfl
@[simp] theorem State.withFetchWord_M (s : State) (nbits w : Nat) : (s.withFetchWord nbits w).M = s.M := rfl
@[simp] theorem State.withFetchWord_VALID (s : State) (nbits w : Nat) : (s.withFetchWord nbits w).VALID = s.VALID := rfl
@[simp] theorem State.withFetchWord_ERR (s : State) (nbits w : Nat) : (s.withFetchWord nbits w).ERR = s.ERR := rfl
@[simp] theorem State.withFetchWord_REG (s : State) (nbits w : Nat) : (s.withFetchWord nbits w).REG = s.REG := rfl
@[simp] theorem State.withFetchWord_numerics (s : State) (nbits w : Nat) : (s.withFetchWord nbits w).numerics = s.numerics := rfl
@[simp] theorem State.withFetchWord_stream (s : State) (nbits w : Nat) : (s.withFetchWord nbits w).stream = tableBytes nbits w :: s.stream := rfl
@[simp] theorem State.withFetchWord_freeCount (s : State) (nbits w : Nat) : (s.withFetchWord nbits w).freeCount = s.freeCount := rfl

@[simp] theorem State.accept_P (s : State) (b : List Byte) (rest : List (List Byte)) : (s.accept b rest).P = (packetOf b).getD (Config.unspecifiedPacket s.freeCount) := rfl
@[simp] theorem State.accept_LEN (s : State) (b : List Byte) (rest : List (List Byte)) : (s.accept b rest).LEN = presentedLength s.freeCount b.length := rfl
@[simp] theorem State.accept_stage (s : State) (b : List Byte) (rest : List (List Byte)) : (s.accept b rest).stage = s.stage := rfl
@[simp] theorem State.accept_M (s : State) (b : List Byte) (rest : List (List Byte)) : (s.accept b rest).M = s.M := rfl
@[simp] theorem State.accept_VALID (s : State) (b : List Byte) (rest : List (List Byte)) : (s.accept b rest).VALID = s.VALID := rfl
@[simp] theorem State.accept_ERR (s : State) (b : List Byte) (rest : List (List Byte)) : (s.accept b rest).ERR = s.ERR := rfl
@[simp] theorem State.accept_REG (s : State) (b : List Byte) (rest : List (List Byte)) : (s.accept b rest).REG = s.REG := rfl
@[simp] theorem State.accept_numerics (s : State) (b : List Byte) (rest : List (List Byte)) : (s.accept b rest).numerics = s.numerics := rfl
@[simp] theorem State.accept_stream (s : State) (b : List Byte) (rest : List (List Byte)) : (s.accept b rest).stream = rest := rfl
@[simp] theorem State.accept_freeCount (s : State) (b : List Byte) (rest : List (List Byte)) : (s.accept b rest).freeCount = s.freeCount + 1 := rfl

@[simp] theorem State.enter_P (s : State) (g : Stage) : (s.enter g).P = s.P := rfl
@[simp] theorem State.enter_LEN (s : State) (g : Stage) : (s.enter g).LEN = s.LEN := rfl
@[simp] theorem State.enter_stage (s : State) (g : Stage) : (s.enter g).stage = g := rfl
@[simp] theorem State.enter_M (s : State) (g : Stage) : (s.enter g).M = s.M := rfl
@[simp] theorem State.enter_VALID (s : State) (g : Stage) : (s.enter g).VALID = s.VALID := rfl
@[simp] theorem State.enter_ERR (s : State) (g : Stage) : (s.enter g).ERR = s.ERR := rfl
@[simp] theorem State.enter_REG (s : State) (g : Stage) : (s.enter g).REG = s.REG := rfl
@[simp] theorem State.enter_numerics (s : State) (g : Stage) : (s.enter g).numerics = s.numerics := rfl
@[simp] theorem State.enter_stream (s : State) (g : Stage) : (s.enter g).stream = s.stream := rfl
@[simp] theorem State.enter_freeCount (s : State) (g : Stage) : (s.enter g).freeCount = s.freeCount := rfl

@[simp] theorem State.finish_ok (s : State) (m : Measurement) : s.finish (.ok m) = s.emit m := rfl
@[simp] theorem State.finish_error (s : State) (k : ErrorKind) : s.finish (.error k) = s.abort k := rfl

end Sys2Proof.Machine
end

