-- ==== Sys2Proof/Laws/Ops.lean ====
section
/-! SUPPORT. What each shared operation can do, said once, so that later proofs cite it instead of unfolding the
operation. -/

namespace Sys2Proof.Machine

/-- Every width of the length input holds the counts below 16. -/
theorem sixteen_le_lenWidth : 16 ≤ 2 ^ lenWidth := Nat.pow_le_pow_right (by decide : 2 > 0) (Nat.le_add_right 4 _)

/-- What `LEN` can hold after a load: the count where the width holds it, and else a number that is not 9; it fits the width
in both cases (R24, R58). -/
theorem presentedLength_cases (n count : Nat) :
    (count < 2 ^ lenWidth ∧ presentedLength n count = count) ∨
      (2 ^ lenWidth ≤ count ∧ presentedLength n count = overlongCount n ∧ overlongCount n ≠ 9 ∧
        overlongCount n < 2 ^ lenWidth) := by
  have hw := sixteen_le_lenWidth
  by_cases h : count < 2 ^ lenWidth
  · refine .inl ⟨h, ?_⟩
    rw [presentedLength, if_pos h, ite_self]
  · have hv := Nat.mod_lt (Config.overlongCount n) (by omega : 2 ^ lenWidth - 1 > 0)
    refine .inr ⟨by omega, by rw [presentedLength, if_neg (by omega), if_neg h], ?_⟩
    unfold overlongCount
    simp only []
    constructor <;> split <;> omega

/-- `LEN` is 9 exactly when nine bytes were presented, in every width (R24, R201). -/
theorem presentedLength_eq_nine (n count : Nat) : presentedLength n count = 9 ↔ count = 9 := by
  have hw := sixteen_le_lenWidth
  rcases presentedLength_cases n count with ⟨_, h⟩ | ⟨_, h, _, _⟩ <;> omega

/-- `LEN` always fits its width after a load. -/
theorem presentedLength_lt (n count : Nat) : presentedLength n count < 2 ^ lenWidth := by
  rcases presentedLength_cases n count with ⟨_, h⟩ | ⟨_, h, _, _⟩ <;> omega

/-- A DECODE ends by the emit or by an abort (R209). -/
theorem State.finish_cases (s : State) (r : Except ErrorKind Measurement) :
    (∃ m, r = .ok m ∧ s.finish r = s.emit m) ∨ (∃ k, r = .error k ∧ s.finish r = s.abort k) := by
  cases r with
  | ok m => exact .inl ⟨m, rfl, rfl⟩
  | error k => exact .inr ⟨k, rfl, rfl⟩

/-- Everything the common meaning of the rows can do when it answers a next state. -/
theorem State.decodeRow_next {s t : State} {c : Nibble} {p : Fields} (h : s.decodeRow c p = .next t) :
    s.stage = .idle ∧ t = s.finish (measure s.REG s.numerics c p) := by
  unfold State.decodeRow at h
  split at h
  · rename_i hi
    exact ⟨hi, (Host.Outcome.next.inj h).symm⟩
  · cases h

/-- An idle instance runs a row. -/
theorem State.decodeRow_idle {s : State} (hi : s.stage = .idle) (c : Nibble) (p : Fields) :
    s.decodeRow c p = .next (s.finish (measure s.REG s.numerics c p)) := if_pos hi

/-- Every instruction runs the common step list for its row's code (R138). -/
theorem exec_eq_decodeRow (i : Instr) (s : State) : exec i s = s.decodeRow (codeOf i) (fieldsIn i) := by
  cases i <;> rfl

/-- Everything steps 2 to 11 need and give when they answer a record (R202). -/
theorem measure_ok {REG : Registry} {fmt : FloatFormat} {c : Nibble} {p : Fields} {m : Measurement}
    (h : measure REG fmt c p = .ok m) :
    ∃ e rd cur, stepTwo REG c = .ok e ∧ stepThree e p.r = .ok rd ∧ stepFive p.flags = .ok cur ∧
      m = stepEleven p.flags (stepFour p.flags (workingOf e rd)) ⟨cur, stepSix p.flags, stepSeven p.flags⟩
        (stepTen (stepSix p.flags)
          (stepNine fmt (stepEight p.d0 p.d1 p.d2 p.d3 p.flags) (stepFour p.flags (workingOf e rd)).rd)) := by
  unfold measure at h
  cases h2 : stepTwo REG c with
  | error k => rw [h2] at h; cases h
  | ok e =>
    rw [h2] at h
    cases h3 : stepThree e p.r with
    | error k => simp only [bind, Except.bind, h3] at h; cases h
    | ok rd =>
      cases h5 : stepFive p.flags with
      | error k => simp only [bind, Except.bind, h3, h5] at h; cases h
      | ok cur =>
        simp only [bind, Except.bind, h3, h5] at h
        exact ⟨e, rd, cur, rfl, h3, rfl, (Except.ok.inj h).symm⟩

/-- The record of steps 2 to 11 when steps 2, 3 and 5 succeed (R202). -/
theorem measure_of_steps {REG : Registry} {c : Nibble} {p : Fields} {e : FunctionEntry} {rd : RangeDescriptor}
    {cur : Option CurrentType} (fmt : FloatFormat) (h2 : stepTwo REG c = .ok e) (h3 : stepThree e p.r = .ok rd)
    (h5 : stepFive p.flags = .ok cur) :
    measure REG fmt c p =
      .ok (stepEleven p.flags (stepFour p.flags (workingOf e rd)) ⟨cur, stepSix p.flags, stepSeven p.flags⟩
        (stepTen (stepSix p.flags)
          (stepNine fmt (stepEight p.d0 p.d1 p.d2 p.d3 p.flags) (stepFour p.flags (workingOf e rd)).rd))) := by
  unfold measure
  simp only [bind, Except.bind, h2, h3, h5]
  rfl

/-- What the lookup of step 2 answers (R120). -/
theorem stepTwo_registered {REG : Registry} {c : Nibble} {e : FunctionEntry} (h : registryAt REG c = some e) :
    stepTwo REG c = .ok e := by
  unfold stepTwo flookup
  rw [h]

/-- An unregistered code fails step 2 (R120). -/
theorem stepTwo_unregistered {REG : Registry} {c : Nibble} (h : registryAt REG c = none) :
    stepTwo REG c = .error .UnknownFunction := by
  unfold stepTwo flookup
  rw [h]

/-- An entry without a range table fails step 3 whatever the range index (R132). -/
theorem stepThree_absent {e : FunctionEntry} (r : Nibble) (h : e.rangeTable = none) :
    stepThree e r = .error .UnsupportedMode := by
  unfold stepThree
  rw [h]

/-- An entry with a range table is looked up at the range index (R131). -/
theorem stepThree_present {e : FunctionEntry} {t : List RangeDescriptor} (r : Nibble) (h : e.rangeTable = some t) :
    stepThree e r = rlookup t r := by
  unfold stepThree
  rw [h]

/-- A range index inside the table resolves its descriptor (R121). -/
theorem rlookup_inside {t : List RangeDescriptor} {r : Nibble} {rd : RangeDescriptor} (h : t[r.toNat]? = some rd) :
    rlookup t r = .ok rd := by
  unfold rlookup
  rw [h]

/-- A range index beyond the table fails (R121). -/
theorem rlookup_beyond {t : List RangeDescriptor} {r : Nibble} (h : t.length ≤ r.toNat) :
    rlookup t r = .error .UnknownRange := by
  unfold rlookup
  rw [List.getElem?_eq_none h]

/-- What the fetch answers: the next input, loaded, with the rest of the stream left. -/
theorem State.fetch_cons {s : State} {b : List Byte} {rest : List (List Byte)} (h : s.stream = b :: rest) :
    s.fetch = some (s.accept b rest) := by
  unfold State.fetch
  rw [h]

/-- With no further input there is nothing to fetch (R270). -/
theorem State.fetch_nil {s : State} (h : s.stream = []) : s.fetch = none := by
  unfold State.fetch
  rw [h]

/-- The packet registers of a load decode as the presented bytes do (R92, R201). -/
theorem State.decodeLoaded_load (s : State) (b : List Byte) (rest : List (List Byte)) :
    (s.accept b rest).decodeLoaded = decode b := by
  have hs := packetOf_isSome b
  change (if presentedLength s.freeCount b.length = 9 then
    decodePacket ((packetOf b).getD (Config.unspecifiedPacket s.freeCount)) else .error .FramingError) = decode b
  simp only [presentedLength_eq_nine]
  unfold decode
  cases hp : packetOf b with
  | none =>
    rw [hp] at hs
    rw [if_neg (by simpa using hs.symm)]
  | some P =>
    rw [hp] at hs
    rw [if_pos (by simpa using hs.symm)]
    rfl

/-- One step of the Packet Parser that can fail: it enters the stage its result gives, or aborts (R203). -/
theorem State.proceed_cases {α : Type} (s : State) (r : Except ErrorKind α) (next : α → Stage) :
    (∃ a, r = .ok a ∧ s.proceed r next = s.enter (next a)) ∨ (∃ k, r = .error k ∧ s.proceed r next = s.abort k) := by
  cases r with
  | ok a => exact .inl ⟨a, rfl, rfl⟩
  | error k => exact .inr ⟨k, rfl, rfl⟩

end Sys2Proof.Machine
end

