-- ==== Sys2Proof/Laws/PerInstr.lean ====
section
/-! SUPPORT. Facts about every instruction as syntax, one lemma per constructor of Instr. -/

namespace Sys2Proof.Laws.EncodingShape

open Sys2Proof Sys2Proof.Machine

/-- The encoder puts the row's code and the instruction's fields where format P9 has them (R71). -/
def Statement (i : Instr) : Prop :=
  functionCode (encodePacket i) = codeOf i ∧ fieldsOf (encodePacket i) (fieldsIn i).flags = fieldsIn i

/-- The shape holds of any instruction; the lemmas below say it row by row. -/
theorem general (i : Instr) : Statement i := by
  simp [Statement, functionCode, fieldsOf, rangeIndex, encodePacket]

theorem fn0 (p : Fields) : Statement (.fn0 p) := general _
theorem fn1 (p : Fields) : Statement (.fn1 p) := general _
theorem freq (p : Fields) : Statement (.freq p) := general _
theorem duty (p : Fields) : Statement (.duty p) := general _
theorem fn3 (p : Fields) : Statement (.fn3 p) := general _
theorem temp (p : Fields) : Statement (.temp p) := general _
theorem fn5 (p : Fields) : Statement (.fn5 p) := general _
theorem fn6 (p : Fields) : Statement (.fn6 p) := general _
theorem fn7 (p : Fields) : Statement (.fn7 p) := general _
theorem fn8 (p : Fields) : Statement (.fn8 p) := general _
theorem fn9 (p : Fields) : Statement (.fn9 p) := general _
theorem unreg (p : Fields) : Statement (.unreg p) := general _
theorem volt (p : Fields) : Statement (.volt p) := general _
theorem fnc (p : Fields) : Statement (.fnc p) := general _
theorem fnd (p : Fields) : Statement (.fnd p) := general _
theorem fne (p : Fields) : Statement (.fne p) := general _
theorem fnf (p : Fields) : Statement (.fnf p) := general _

end Sys2Proof.Laws.EncodingShape
end

