-- ==== Sys2Proof/Laws/Registry.lean ====
section
/-! SUPPORT. What an admissible registry holds at the four pinned codes (R125 to R128). -/

namespace Sys2Proof.Machine

/-- The five conditions of an admissible registry, one by one. -/
theorem registryAdmissible_parts {R : Registry} (h : registryAdmissible R = true) :
    R.toList.all tableFits = true ∧ voltagePinned R[0xB] = true ∧ frequencyPinned R[0x2] = true ∧
      temperaturePinned R[0x4] = true ∧ R[0xA].isNone = true := by
  simp only [registryAdmissible, Bool.and_eq_true] at h
  exact ⟨h.1.1.1.1, h.1.1.1.2, h.1.1.2, h.1.2, h.2⟩

/-- Code 0xB of an admissible registry (R125). -/
theorem admissible_voltage {R : Registry} (h : registryAdmissible R = true) :
    ∃ rest unit, registryAt R 0xB = some ⟨"voltage", some (voltDescriptor :: rest), unit⟩ := by
  have hv := (registryAdmissible_parts h).2.1
  change voltagePinned (registryAt R 0xB) = true at hv
  cases he : registryAt R 0xB with
  | none => rw [he] at hv; cases hv
  | some e =>
    rw [he] at hv
    match e, hv with
    | ⟨mode, some (rd :: rest), unit⟩, hv =>
      simp only [voltagePinned, Bool.and_eq_true, beq_iff_eq] at hv
      exact ⟨rest, unit, by rw [hv.1, hv.2]⟩

/-- Code 0x2 of an admissible registry (R126). -/
theorem admissible_frequency {R : Registry} (h : registryAdmissible R = true) :
    ∃ table unit, registryAt R 0x2 = some ⟨"frequency", table, unit⟩ := by
  have hv := (registryAdmissible_parts h).2.2.1
  change frequencyPinned (registryAt R 0x2) = true at hv
  cases he : registryAt R 0x2 with
  | none => rw [he] at hv; cases hv
  | some e =>
    rw [he] at hv
    match e, hv with
    | ⟨mode, table, unit⟩, hv =>
      simp only [frequencyPinned, beq_iff_eq] at hv
      exact ⟨table, unit, by rw [hv]⟩

/-- Code 0x4 of an admissible registry (R127). -/
theorem admissible_temperature {R : Registry} (h : registryAdmissible R = true) :
    ∃ unit, registryAt R 0x4 = some ⟨"temperature", none, unit⟩ := by
  have hv := (registryAdmissible_parts h).2.2.2.1
  change temperaturePinned (registryAt R 0x4) = true at hv
  cases he : registryAt R 0x4 with
  | none => rw [he] at hv; cases hv
  | some e =>
    rw [he] at hv
    match e, hv with
    | ⟨mode, none, unit⟩, hv =>
      simp only [temperaturePinned, beq_iff_eq] at hv
      exact ⟨unit, by rw [hv]⟩

/-- Code 0xA of an admissible registry (R128). -/
theorem admissible_unregistered {R : Registry} (h : registryAdmissible R = true) : registryAt R 0xA = none := by
  have hv := (registryAdmissible_parts h).2.2.2.2
  change (registryAt R 0xA).isNone = true at hv
  exact Option.isNone_iff_eq_none.mp hv

end Sys2Proof.Machine
end

