-- ==== Sys2Proof/Tests/Slice0.lean ====
section
/-! SUPPORT. The model's own tests. Expected results are those of spec/95_test_vectors.md (the vector's name stands in the
comment) or of the spec's encoding table. The registry `t1` is that file's invented fixture T1. -/

namespace Sys2Proof.Tests

open Sys2Proof.Machine Sys2Proof.Claims

/-- T1's descriptors of code 0x3. -/
def ohms : FunctionEntry :=
  ⟨"resistance", some [⟨⟨1, 0⟩, 1, "Ohm"⟩, ⟨⟨1000, 0⟩, 3, "kOhm"⟩, ⟨⟨1, -3⟩, 2, "mOhm"⟩], "Ohm"⟩

/-- T1's entry of code 0x2. -/
def hertz : FunctionEntry := ⟨"frequency", some [⟨⟨1, 0⟩, 0, "Hz"⟩, ⟨⟨1000, 0⟩, 2, "kHz"⟩], "Hz"⟩

/-- T1's entry of code 0x4. -/
def degrees : FunctionEntry := ⟨"temperature", none, "degC"⟩

/-- T1's entry of code 0xB. -/
def volts : FunctionEntry := ⟨"voltage", some [⟨⟨1, 0⟩, 3, "V"⟩], "V"⟩

/-- The test registry T1 of 95_test_vectors.md. -/
def t1 : Registry :=
  #v[none, none, some hertz, some ohms, some degrees, none, none, none, none, none, none, some volts, none, none, none, none]

/-- T1 with its entry of code 0x3 at every parameter code. -/
def t2 : Registry :=
  #v[some ohms, some ohms, some hertz, some ohms, some degrees, some ohms, some ohms, some ohms, some ohms, some ohms, none,
    some volts, some ohms, some ohms, some ohms, some ohms]

/-- The reset state with a registry. -/
def withRegistry (REG : Registry) : State := { State.reset with REG := REG }

/-- The reset state over T1 with these inputs to come. -/
def feed (inputs : List (List Byte)) : State := { withRegistry t1 with stream := inputs }

/-- The next state of an answer. -/
def nextOf (a : Answer) : Option State :=
  match a with
  | .next t => some t
  | _ => none

/-- What one step on one input leaves in `M` and `ERR`, over T1. -/
def decoded (input : List Byte) : Option (Option Measurement × BitVec 3) :=
  (nextOf (step (feed [input]))).map fun t => (t.M, t.ERR)

/-- One field of the record that one step on one input leaves, over T1. -/
def field {α : Type} (f : Measurement → α) (input : List Byte) : Option α :=
  ((nextOf (step (feed [input]))).bind (·.M)).map f

/-- No flag. -/
def noFlags : Flags := ⟨false, false, false, false, false, false, false, false, false, false⟩

/-- The fields of digits 1, 2, 3, 4 at range index `r`. -/
def plain (r : Nibble) (F : Flags) : Fields := ⟨r, 1, 2, 3, 4, F⟩

/-! Well-formedness. -/

theorem test_freq_with_judge_is_ill_formed :
    (Instr.freq (plain 0 { noFlags with JUDGE := true })).wellFormed = false := by decide

theorem test_duty_without_judge_is_ill_formed : (Instr.duty (plain 0 noFlags)).wellFormed = false := by decide

theorem test_other_rows_take_every_flag :
    ∀ row ∈ parameterRows, (row.1 (plain 0 { noFlags with JUDGE := true })).wellFormed = true := by
  intro row hrow
  simp only [parameterRows, List.mem_cons, List.not_mem_nil, or_false] at hrow
  rcases hrow with h | h | h | h | h | h | h | h | h | h | h | h <;> subst h <;> rfl

/-! Decoding: words written out from the encoding of 30_encoding.md R71 and R80, one for every row. -/

theorem test_decode_volt : decodeTableWord 72 0x00060000000B000008 =
    some (.volt ⟨0, 6, 0, 0, 0, { noFlags with DC := true }⟩) := by decide
theorem test_decode_volt_all_flags : decodeTableWord 72 0x00010203040B0E0E0A =
    some (.volt ⟨0, 1, 2, 3, 4, ⟨true, true, true, false, true, true, true, true, false, true⟩⟩) := by decide
theorem test_decode_freq : decodeTableWord 72 0x010102030402040000 =
    some (.freq ⟨1, 1, 2, 3, 4, { noFlags with SIGN := true }⟩) := by decide
theorem test_decode_duty : decodeTableWord 72 0x00000500000208000C =
    some (.duty ⟨0, 0, 5, 0, 0, { noFlags with JUDGE := true, AC := true, DC := true }⟩) := by decide
theorem test_decode_temp : decodeTableWord 72 0x000102030404000000 = some (.temp (plain 0 noFlags)) := by decide
theorem test_decode_unreg_high_nibble : decodeTableWord 72 0x0001020304FA000000 = some (.unreg (plain 0 noFlags)) := by
  decide
theorem test_decode_fn0 : decodeTableWord 72 0x0F0102030400000200 =
    some (.fn0 (plain 15 { noFlags with MIN := true })) := by decide
theorem test_decode_fn1 : decodeTableWord 72 0x000102030401000400 =
    some (.fn1 (plain 0 { noFlags with MAX := true })) := by decide
theorem test_decode_fn3 : decodeTableWord 72 0x020102030403000002 =
    some (.fn3 (plain 2 { noFlags with AUTO := true })) := by decide
theorem test_decode_fn5 : decodeTableWord 72 0x000102030405000800 =
    some (.fn5 (plain 0 { noFlags with HOLD := true })) := by decide
theorem test_decode_fn6 : decodeTableWord 72 0x000102030406020000 =
    some (.fn6 (plain 0 { noFlags with BATT := true })) := by decide
theorem test_decode_fn7 : decodeTableWord 72 0x000102030407010000 =
    some (.fn7 (plain 0 { noFlags with OL := true })) := by decide
theorem test_decode_fn8 : decodeTableWord 72 0x000102030408000004 =
    some (.fn8 (plain 0 { noFlags with AC := true })) := by decide
theorem test_decode_fn9 : decodeTableWord 72 0x000102030409080000 =
    some (.fn9 (plain 0 { noFlags with JUDGE := true })) := by decide
theorem test_decode_fnc : decodeTableWord 72 0x00010203040C000000 = some (.fnc (plain 0 noFlags)) := by decide
theorem test_decode_fnd : decodeTableWord 72 0x00010203040D000000 = some (.fnd (plain 0 noFlags)) := by decide
theorem test_decode_fne : decodeTableWord 72 0x00010203040E000000 = some (.fne (plain 0 noFlags)) := by decide
theorem test_decode_fnf : decodeTableWord 72 0x00010203040F000000 = some (.fnf (plain 0 noFlags)) := by decide
theorem test_decode_refuses_fixed_zero_bits :
    decodeTableWord 72 0x00060000000B000108 = none ∧ decodeTableWord 72 0x00060000000B000009 = none := by decide
theorem test_decode_refuses_other_lengths : decodeTableWord 80 0x00060000000B00000800 = none := by decide
theorem test_encode_volt : encode (.volt ⟨0, 6, 0, 0, 0, { noFlags with DC := true }⟩) =
    [0x00, 0x06, 0x00, 0x00, 0x00, 0x0B, 0x00, 0x00, 0x08] := by decide

/-! The Bit-Flag Decoder (V-B7, V-B11, V-B13, V-B21). -/

/-- Whether `BFD` fails. -/
def fails (r : Except BfdError FlagMap) : Bool :=
  match r with
  | .ok _ => false
  | .error _ => true

/-- The mapping `BFD` gives. -/
def mapping (r : Except BfdError FlagMap) : FlagMap :=
  match r with
  | .ok m => m
  | .error _ => []

theorem test_bfd_status : mapping (bfd 0xF5 templateStatus) =
    [(.OL, true), (.BATT, false), (.SIGN, true), (.JUDGE, false)] := by decide
theorem test_bfd_opt1 : mapping (bfd 0x04 templateOpt1) = [(.MIN, false), (.MAX, true), (.HOLD, false)] := by decide
theorem test_bfd_mismatch : fails (bfd 0x01 templateOpt1) = true := by decide
theorem test_bfd_opt2 : mapping (bfd 0x38 templateOpt2) = [(.AUTO, false), (.AC, false), (.DC, true)] := by decide

/-! The rows. -/

/-- V-S1. -/
theorem test_volt_scenario_one : decoded [0x00, 6, 0, 0, 0, 0x0b, 0x00, 0x00, 0x08] =
    some (some ⟨some 0x4018000000000000#64, "V", some ⟨6000, 3⟩, "V", "voltage", some .DC, none, false, .manual, .normal,
      false⟩, 0) := by decide

/-- V-M10: every flag that neither aborts nor overloads. -/
theorem test_volt_all_flags : decoded [0x00, 0x01, 0x02, 0x03, 0x04, 0x0B, 0x0E, 0x0E, 0x0A] =
    some (some ⟨some 0xBFF3BE76C8B43958#64, "V", some ⟨-1234, 3⟩, "V", "voltage", some .DC, some .max, true, .auto,
      .normal, true⟩, 0) := by decide

/-- V-S2. -/
theorem test_overload_masks : decoded [0x00, 6, 0, 0, 0, 0x0b, 0x01, 0x00, 0x08] =
    some (some ⟨none, "V", none, "V", "voltage", some .DC, none, false, .manual, .overload, false⟩, 0) := by decide

/-- V-R5. -/
theorem test_freq_kilohertz : decoded [0x01, 0x01, 0x02, 0x03, 0x04, 0x02, 0x00, 0x00, 0x00] =
    some (some ⟨some 0x40C81A0000000000#64, "Hz", some ⟨1234, 2⟩, "kHz", "frequency", none, none, false, .manual, .normal,
      false⟩, 0) := by decide

/-- V-R6. -/
theorem test_freq_range_beyond : decoded [0x02, 0x01, 0x02, 0x03, 0x04, 0x02, 0x00, 0x00, 0x00] = some (none, 4) := by
  decide

/-- V-D2. -/
theorem test_duty_override : decoded [0x01, 0x00, 0x05, 0x00, 0x00, 0x02, 0x08, 0x00, 0x00] =
    some (some ⟨some 0x4049000000000000#64, "%", some ⟨500, 1⟩, "%", "duty_cycle", none, none, false, .manual, .normal,
      false⟩, 0) := by decide

/-- V-D3: the lookup of step 3 aborts before the override of step 4. -/
theorem test_duty_range_beyond : decoded [0x05, 0x00, 0x05, 0x00, 0x00, 0x02, 0x08, 0x00, 0x00] = some (none, 4) := by
  decide

/-- V-R12 and V-E7. -/
theorem test_temp_unsupported :
    decoded [0x0F, 0x0F, 0x0F, 0x0F, 0x0F, 0x04, 0x0F, 0x0E, 0x02] = some (none, 6) ∧
      decoded [0x00, 0x06, 0x00, 0x00, 0x00, 0x04, 0x00, 0x00, 0x0C] = some (none, 6) := by decide

/-- V-E6. -/
theorem test_unreg_unknown : decoded [0x00, 0x06, 0x00, 0x00, 0x00, 0x0A, 0x00, 0x00, 0x0C] = some (none, 3) := by decide

/-- V-R9: the multiplier 0.001 is not exact in binary64. -/
theorem test_fn3_milliohm : field (fun m => (m.value, m.displayValue, m.unit, m.displayUnit))
    [0x02, 0x01, 0x02, 0x03, 0x04, 0x03, 0x00, 0x00, 0x02] =
    some (some 0x3F8945B6C3760BF6#64, some ⟨1234, 2⟩, "Ohm", "mOhm") := by decide

/-- V-D8: JUDGE has no effect on a mode that is not "frequency". -/
theorem test_fn3_judge_ignored : field (fun m => (m.mode, m.value, m.rangeMode))
    [0x00, 0x01, 0x02, 0x03, 0x04, 0x03, 0x08, 0x00, 0x02] =
    some ("resistance", some 0x405ED9999999999A#64, .auto) := by decide

/-- V-R15. -/
theorem test_fn7_unregistered : decoded [0x00, 0x01, 0x02, 0x03, 0x04, 0x07, 0x00, 0x00, 0x00] = some (none, 3) := by
  decide

/-- The steps of R202 by hand for every parameter row over `t2`: mode, unit, display value. -/
theorem test_parameter_rows_measure :
    parameterRows.map (fun row => ((nextOf (exec (row.1 (plain 1 noFlags)) (withRegistry t2))).bind (·.M)).map
      fun m => (m.mode, m.unit, m.displayUnit, m.displayValue)) =
    List.replicate 12 (some ("resistance", "Ohm", "kOhm", some ⟨1234, 3⟩)) := by decide

/-! Numbers (V-N2, V-N10, V-N15, V-N8). -/

theorem test_sign_on_zero : field (fun m => (m.value, m.displayValue))
    [0x00, 0x00, 0x00, 0x00, 0x00, 0x0B, 0x04, 0x00, 0x08] = some (some 0#64, some ⟨0, 3⟩) := by decide
theorem test_all_nibbles_fifteen : field (fun m => (m.value, m.displayValue))
    [0x00, 0x0F, 0x0F, 0x0F, 0x0F, 0x0B, 0x00, 0x00, 0x08] =
    some (some 0x4030AA3D70A3D70A#64, some ⟨16665, 3⟩) := by decide
theorem test_thousandth_of_a_kiloohm : field (·.value) [0x01, 0x00, 0x00, 0x00, 0x01, 0x03, 0x00, 0x00, 0x00] =
    some (some 0x3FF0000000000000#64) := by decide
theorem test_non_decimal_digit : field (·.value) [0x00, 0x00, 0x00, 0x00, 0x0A, 0x0B, 0x00, 0x00, 0x08] =
    some (some 0x3F847AE147AE147B#64) := by decide

/-- 43_numeric_converter.md R180, and 0.010 and -1.234 of R178. -/
theorem test_display_text :
    [displayText ⟨1234, 0⟩, displayText ⟨1234, 1⟩, displayText ⟨-5, 0⟩, displayText ⟨-5, 3⟩, displayText ⟨10, 3⟩,
      displayText ⟨-1234, 3⟩] = ["1234", "123.4", "-5", "-0.005", "0.010", "-1.234"] := by decide

/-! Errors and outputs. -/

/-- V-E1, V-E3, V-E4. -/
theorem test_framing :
    decoded [0x00, 0x06, 0x00, 0x00, 0x00, 0x0B, 0x00, 0x00] = some (none, 1) ∧ decoded [] = some (none, 1) ∧
      decoded [0x00, 0x06, 0x00, 0x00, 0x00, 0x0A, 0x00, 0x01, 0x0C, 0x00] = some (none, 1) := by decide

/-- R24, R260 and log entry 1: the length after a load, and a DECODE requested before any input. -/
theorem test_length_input :
    (presentedLength 0 0, presentedLength 5 9, presentedLength 0 15) = (0, 9, 15) ∧
      (tick (State.reset.enter .framing)).ERR = 1 := by decide

/-- V-S4, V-H3, V-E5. -/
theorem test_fixed_zero_bits :
    decoded [0x00, 6, 0, 0, 0, 0x0b, 0x00, 0x01, 0x08] = some (none, 2) ∧
      decoded [0x00, 6, 0, 0, 0, 0x0b, 0x00, 0x00, 0x09] = some (none, 2) ∧
      decoded [0x00, 6, 0, 0, 0, 0x0a, 0x00, 0x01, 0x0C] = some (none, 2) := by decide

/-- V-S3, V-E9, V-E11. -/
theorem test_both_current_types :
    decoded [0x00, 6, 0, 0, 0, 0x0b, 0x00, 0x00, 0x0C] = some (none, 5) ∧
      decoded [0x01, 1, 2, 3, 4, 0x0b, 0x00, 0x00, 0x0C] = some (none, 4) ∧
      decoded [0x00, 6, 0, 0, 0, 0x0b, 0x01, 0x00, 0x0C] = some (none, 5) := by decide

/-- V-I5 and V-I2: register images. -/
theorem test_register_image :
    (let g := imageOf 0 ⟨some 0xC030AA3D70A3D70A#64, "V", some ⟨-16665, 3⟩, "V", "voltage", some .DC, none, false, .manual,
      .normal, false⟩
     (g.valuePresent, g.value, g.dvPresent, g.dvN, g.dvP, g.current, g.peak)) =
    (1, 0xC030AA3D70A3D70A#64, 1, 0xBEE7#16, 3, 1, 0) := by decide

/-- The first instruction after reset is fetched and run: the reset registry's voltage entry is pinned (V-S1). -/
theorem test_first_instruction_after_reset :
    ((nextOf (step (State.reset.withFetchWord 72 0x00060000000B000008))).bind (·.M)).map
      (fun m => (m.mode, m.displayValue, m.value)) =
    some ("voltage", some ⟨6000, 3⟩, some 0x4018000000000000#64) := by decide

/-! Witnesses: a concrete state and operands that meet the hypotheses of each statement, clause by clause. -/

/-- The nine bytes of scenario 1 as a packet. -/
def scenario : Packet := ⟨0, 6, 0, 0, 0, 0x0b, 0, 0, 0x08⟩

/-- The fields of scenario 1. -/
def scenarioFields : Fields := ⟨0, 6, 0, 0, 0, { noFlags with DC := true }⟩

/-- The state over T1 in the middle of a DECODE of scenario 1, at a stage. -/
def amid (g : Stage) : State := { withRegistry t1 with P := scenario, LEN := 9, stage := g }

/-- A packet of T1's voltage entry with AC and DC. -/
def acDc : Packet := ⟨0, 6, 0, 0, 0, 0x0b, 0, 0, 0x0C⟩

theorem witness_admissible : registryAdmissible t1 = true ∧ registryAdmissible t2 = true := by decide

/-- 0 and 9 fit every width of the length input. -/
theorem small_lengths_fit : 0 < 2 ^ lenWidth ∧ 9 < 2 ^ lenWidth :=
  ⟨lt_of_lt_of_le (by decide) sixteen_le_lenWidth, lt_of_lt_of_le (by decide) sixteen_le_lenWidth⟩

theorem witness_invariant : (feed [packetBytes scenario]).Inv :=
  ⟨by decide, by decide, by decide, by decide, (by intro m h; cases h), by decide, small_lengths_fit.1⟩

theorem witness_StepKeepsTheInvariant : ∃ s t : State, s.Inv ∧ step s = .next t :=
  ⟨feed [packetBytes scenario], _, witness_invariant, rfl⟩

theorem witness_ParserStepKeepsTheInvariant : ∃ s : State, s.Inv ∧ s.stage ≠ .idle :=
  ⟨amid .framing,
    ⟨by decide, by decide, by decide, by decide, (by intro m h; cases h), by decide, small_lengths_fit.2⟩, by decide⟩

theorem witness_PinnedRegistriesAreTheAdmissibleOnes : ∃ R : Registry, registryAdmissible R = true := ⟨t1, by decide⟩

theorem witness_AdmissibilityIsTheFourPinnedFacts : ∃ c e t,
    registryAdmissible t1 = true ∧ registryAt t1 c = some e ∧ e.rangeTable = some t :=
  ⟨0x3, ohms, _, by decide, rfl, rfl⟩

theorem witness_DecodeOfEncodeIsTheInstruction : ∃ i : Instr, i.wellFormed = true :=
  ⟨.duty (plain 15 { noFlags with JUDGE := true }), rfl⟩

theorem witness_EncodeOfDecodeClearsTheIgnoredBits : ∃ (P : Packet) (i : Instr), decodePacket P = .ok i :=
  ⟨⟨0xF0, 0x36, 0, 0, 0, 0x3B, 0x30, 0x30, 0x38⟩, .volt scenarioFields, rfl⟩

theorem witness_DecoderFollowsTheOpcodeTable : ∃ (W W' : Word72) (i : Instr),
    decodePacket (packetOfWord W) = .ok i ∧ decodePacket (packetOfWord W') = .error .InvalidStatusBits :=
  ⟨0x00060000000B000008#72, 0x00060000000B000009#72, .volt scenarioFields, rfl, rfl⟩

theorem witness_StepRunsTheDecodedInstruction : ∃ (s : State) (P : Packet) (i : Instr),
    s.stage = .idle ∧ decodePacket P = .ok i := ⟨State.reset, scenario, .volt scenarioFields, rfl, rfl⟩

theorem witness_WrongLengthAbortsWithFramingError : ∃ s : State, s.stage = .idle ∧
    ([] : List Byte).length ≠ 9 ∧ (List.replicate 8 (0 : Byte)).length ≠ 9 ∧ (List.replicate 10 (0 : Byte)).length ≠ 9 :=
  ⟨State.reset, rfl, by decide, by decide, by decide⟩

theorem witness_FixedZeroBitAbortsWithInvalidStatusBits : ∃ (s : State) (P P' : Packet), s.stage = .idle ∧
    P.option1Byte.getLsbD 0 = true ∧ P'.option2Byte.getLsbD 0 = true :=
  ⟨State.reset, { scenario with option1Byte := 0x01 }, { scenario with option2Byte := 0xFF }, rfl, by decide, by decide⟩

theorem witness_StepWithoutInputHoldsTheOutputs : ∃ s : State, s.stage = .idle ∧ s.stream = [] :=
  ⟨State.reset, rfl, rfl⟩

/-- For StepOutcomeFollowsTheDecisionTree, RunDecodesEachInputAlone, StepIsTheTwelveParserSteps and the idle clause of BusyInstanceRefusesRequests. -/
theorem witness_idle : ∃ s : State, s.stage = .idle := ⟨State.reset, rfl⟩

theorem witness_ExactlyOneStatusAfterEveryDecode : ∃ (s s' t t' : State) (a b : List Byte),
    s.stream = [a] ∧ step s = .next t ∧ t.VALID = 1 ∧ s'.stream = [b] ∧ step s' = .next t' ∧ t'.VALID = 0 :=
  ⟨feed [packetBytes scenario], feed [[]], _, _, _, _, rfl, rfl, by decide, rfl, rfl, by decide⟩

theorem witness_OutcomeIgnoresEverythingEarlier : ∃ (s s' t t' : State) (a : List Byte) (r : List (List Byte)),
    s ≠ s' ∧ s.REG = s'.REG ∧ s.numerics = s'.numerics ∧ s.stream = [a] ∧ s'.stream = a :: r ∧ step s = .next t ∧
      step s' = .next t' :=
  ⟨feed [packetBytes scenario], { feed [packetBytes scenario, []] with VALID := 1, M := some default }, _, _,
    packetBytes scenario, [[]], by decide, rfl, rfl, rfl, rfl, rfl, rfl⟩

theorem witness_IgnoredBitsHaveNoEffect : ∃ (a b : List Byte) (t t' : State), a ≠ b ∧ sameMeaningfulBits a b = true ∧
    step (feed [a]) = .next t ∧ step (feed [b]) = .next t' :=
  ⟨packetBytes scenario, [0xF0, 0xF6, 0x80, 0x40, 0x20, 0x1B, 0xF0, 0xF0, 0xF8], _, _, by decide, by decide, rfl, rfl⟩

theorem witness_ResetIsNotNeededBetweenPackets : ∃ s : State, s.stage = .idle ∧ 1 ≤ s.stream.length :=
  ⟨feed [[]], rfl, by decide⟩

theorem witness_VoltEmitsTheVoltageRecord : ∃ (s : State) (p : Fields) (e : FunctionEntry) (t : List RangeDescriptor)
    (rd : RangeDescriptor), s.stage = .idle ∧ registryAdmissible s.REG = true ∧ registryAt s.REG 0xB = some e ∧
      e.rangeTable = some t ∧ t[p.r.toNat]? = some rd ∧ (p.flags.AC && p.flags.DC) = false ∧ p.r = 0 :=
  ⟨withRegistry t1, scenarioFields, volts, _, _, rfl, by decide, rfl, rfl, rfl, by decide, rfl⟩

theorem witness_FreqEmitsTheFrequencyRecord : ∃ (s : State) (p : Fields) (e : FunctionEntry) (t : List RangeDescriptor)
    (rd : RangeDescriptor), s.stage = .idle ∧ registryAdmissible s.REG = true ∧ p.flags.JUDGE = false ∧
      registryAt s.REG 0x2 = some e ∧ e.rangeTable = some t ∧ t[p.r.toNat]? = some rd ∧
      (p.flags.AC && p.flags.DC) = false :=
  ⟨withRegistry t1, plain 1 noFlags, hertz, _, _, rfl, by decide, rfl, rfl, rfl, rfl, by decide⟩

/-- For DutyDoesNotDependOnTheRangeIndex as well. -/
theorem witness_DutyEmitsTheForcedRecord : ∃ (s : State) (p : Fields) (r : Nibble) (e : FunctionEntry)
    (t : List RangeDescriptor), s.stage = .idle ∧ registryAdmissible s.REG = true ∧ p.flags.JUDGE = true ∧
      registryAt s.REG 0x2 = some e ∧ e.rangeTable = some t ∧ p.r.toNat < t.length ∧ r.toNat < t.length ∧ r ≠ p.r ∧
      (p.flags.AC && p.flags.DC) = false :=
  ⟨withRegistry t1, plain 1 { noFlags with JUDGE := true }, 0, hertz, _, rfl, by decide, rfl, rfl, rfl, by decide,
    by decide, by decide, by decide⟩

/-- For TempAbortsWithUnsupportedMode and UnregAbortsWithUnknownFunction. -/
theorem witness_TempAndUnregAbort : ∃ s : State, s.stage = .idle ∧ registryAdmissible s.REG = true :=
  ⟨withRegistry t1, rfl, by decide⟩

theorem witness_ParameterRowsEmitTheirRecord : ∀ row ∈ parameterRows, ∃ (s : State) (p : Fields) (e : FunctionEntry)
    (t : List RangeDescriptor) (rd : RangeDescriptor), s.stage = .idle ∧ registryAt s.REG row.2 = some e ∧
      e.rangeTable = some t ∧ t[p.r.toNat]? = some rd ∧ (p.flags.AC && p.flags.DC) = false := by
  intro row hrow
  refine ⟨withRegistry t2, plain 2 noFlags, ohms, _, _, rfl, ?_, rfl, rfl, by decide⟩
  simp only [parameterRows, List.mem_cons, List.not_mem_nil, or_false] at hrow
  rcases hrow with h | h | h | h | h | h | h | h | h | h | h | h <;> subst h <;> rfl

theorem witness_UnregisteredCodeAborts : ∃ (s : State), s.stage = .idle ∧ registryAt s.REG 0xA = none ∧
    registryAt s.REG 0x0 = none := ⟨withRegistry t1, rfl, rfl, rfl⟩

theorem witness_MissingRangeTableAborts : ∃ (s : State) (e : FunctionEntry), s.stage = .idle ∧
    registryAt s.REG 0x4 = some e ∧ e.rangeTable = none := ⟨withRegistry t1, degrees, rfl, rfl, rfl⟩

theorem witness_RangeIndexBeyondTheTableAborts : ∃ (s : State) (p : Fields) (e : FunctionEntry)
    (t : List RangeDescriptor), s.stage = .idle ∧ registryAt s.REG 0x2 = some e ∧ e.rangeTable = some t ∧
      t.length ≤ p.r.toNat ∧ t.length = 2 ∧ p.r = 2 := ⟨withRegistry t1, plain 2 noFlags, hertz, _, rfl, rfl, rfl,
        by decide, rfl, rfl⟩

theorem witness_BothCurrentTypesAbort : ∃ (s : State) (p : Fields) (e : FunctionEntry) (t : List RangeDescriptor),
    s.stage = .idle ∧ registryAt s.REG 0xB = some e ∧ e.rangeTable = some t ∧ p.r.toNat < t.length ∧
      p.flags.AC = true ∧ p.flags.DC = true :=
  ⟨withRegistry t1, plain 0 { noFlags with AC := true, DC := true }, volts, _, rfl, rfl, rfl, by decide, rfl, rfl⟩

theorem witness_InstructionsWriteOnlyTheOutputs : ∃ (i : Instr) (s t : State), exec i s = .next t :=
  ⟨.volt scenarioFields, withRegistry t1, _, rfl⟩

/-- For the busy clause of BusyInstanceRefusesRequests, ParserStepAdvancesByOneOrEnds and
ParserStepsBeforeTheEndShowNothing. -/
theorem witness_busy : ∃ s : State, s.stage ≠ .idle ∧ (tick s).stage ≠ .idle := ⟨amid .framing, by decide, by decide⟩

/-- Each cause holds at the stage of its step. -/
theorem witness_ErrorsAreRaisedExactlyAtTheirCauses : ∃ (s0 s1 s2 s3 s5 : State) (F : Flags) (e e' : FunctionEntry)
    (table : List RangeDescriptor) (w : Working), (s0.stage = .framing ∧ s0.LEN ≠ 9) ∧
      (s1.stage = .status ∧ s1.P.option1Byte.getLsbD 0 = true) ∧
      (s2.stage = .function F ∧ registryAt s2.REG (s2.P.functionByte.setWidth 4) = none) ∧
      (s3.stage = .range F e ∧ e.rangeTable = some table ∧ table.length ≤ (s3.P.rangeByte.setWidth 4).toNat) ∧
      ((s3.enter (.range F e')).stage = .range F e' ∧ e'.rangeTable = none) ∧
      s5.stage = .current F e w ∧ F.AC = true ∧ F.DC = true :=
  ⟨{ amid .framing with LEN := 8 }, { amid .status with P := { scenario with option1Byte := 0x01 } },
    { amid (.function { noFlags with AC := true, DC := true }) with P := { scenario with functionByte := 0x0A } },
    { amid (.range { noFlags with AC := true, DC := true } volts) with P := { scenario with rangeByte := 0x01 } },
    amid (.current { noFlags with AC := true, DC := true } volts default), _, volts, degrees, _, default,
    ⟨rfl, by decide⟩, ⟨rfl, by decide⟩, ⟨rfl, rfl⟩, ⟨rfl, rfl, by decide⟩, ⟨rfl, rfl⟩, rfl, rfl, rfl⟩

theorem witness_FlagsAreWrittenOnceByStepOne : ∃ (s s' : State) (F : Flags), s.stage = .status ∧
    fixedZeroBitSet s.P = false ∧ s'.F = some F := ⟨amid .status, amid (.function noFlags), noFlags, rfl, by decide, rfl⟩

theorem witness_BfdMatchesSlotsAgainstBits : ∃ (v v' : Byte) (T : Template) (m : FlagMap), bfd v T = .ok m ∧
    bfd v' T = .error .templateMismatch ∧ (∃ i, templateSlot T i = .name .MAX) ∧ ∀ j, templateSlot T j ≠ .name .OL :=
  ⟨0x0E, 0x01, templateOpt1, _, rfl, rfl, ⟨1, rfl⟩, by decide⟩

theorem witness_BfdReadsTheLowNibbleOnly : ∃ v w : Byte, v ≠ w ∧ v.setWidth 4 = w.setWidth 4 :=
  ⟨0xF5, 0x05, by decide, by decide⟩

theorem witness_LookupsReturnTheStoredValue : ∃ (c c' : Nibble) (e : FunctionEntry) (r r' : Nibble)
    (rd : RangeDescriptor), flookup t1 c = .ok e ∧ flookup t1 c' = .error .UnknownFunction ∧
      rlookup [voltDescriptor] r = .ok rd ∧ rlookup [voltDescriptor] r' = .error .UnknownRange :=
  ⟨0xB, 0xA, volts, 0, 1, voltDescriptor, rfl, rfl, rfl, rfl⟩

theorem witness_DisplayIntegerFitsItsRegister : stepEight 15 15 15 15 { noFlags with SIGN := true } = -16665 ∧
    stepEight 9 9 9 9 { noFlags with SIGN := true } = -9999 ∧ (9 : Nibble).toNat ≤ 9 := by decide

theorem witness_DisplayValueRoundTrips : ∃ (P : Packet) (m : Measurement) (v : DisplayValue),
    decodeInput t1 .binary64 (packetBytes P) = .ok m ∧ m.displayValue = some v ∧ v.N < 0 :=
  ⟨{ scenario with statusByte := 0x04 }, _, ⟨-6000, 3⟩, rfl, rfl, by decide⟩

theorem witness_OverloadMasksBothNumbers : ∃ (P P' : Packet) (m m' : Measurement),
    decodeInput t1 .binary64 (packetBytes P) = .ok m ∧ P.statusByte.getLsbD 0 = true ∧
      decodeInput t1 .binary64 (packetBytes P') = .ok m' ∧ P'.statusByte.getLsbD 0 = false :=
  ⟨{ scenario with statusByte := 0x01 }, scenario, _, _, rfl, by decide, rfl, by decide⟩

theorem witness_ConversionDependsOnTheNumberAlone : ∃ x y : Decimal, x ≠ y ∧ decimalNumber x = decimalNumber y :=
  ⟨⟨1000, 0⟩, ⟨1, 3⟩, by decide, by norm_num [decimalNumber]⟩

/-- Two is below the overflow bound. -/
theorem two_lt_overflowBound : 2 < overflowBound := by
  have h : (2 : Rat) ^ 1024 = 2 ^ 970 * 2 ^ 54 := by rw [← pow_add]
  have h' : (1 : Rat) ≤ 2 ^ 970 := one_le_pow₀ (by norm_num)
  have h'' : (2 : Rat) ^ 54 = 18014398509481984 := by norm_num
  rw [overflowBound, h, h'']
  generalize (2 : Rat) ^ 970 = x at h'
  linarith

theorem witness_Binary64ConversionRoundsToNearest : ∃ x : Decimal, |decimalNumber x| < overflowBound :=
  ⟨⟨1234, -3⟩, lt_trans (by norm_num [decimalNumber]) two_lt_overflowBound⟩

theorem witness_Binary64ProductRoundsToNearest : ∃ a b : FlNumber, isFinite a = true ∧ isFinite b = true ∧
    |numberOfImage a * numberOfImage b| < overflowBound := by
  refine ⟨0, 0x3FF0000000000000#64, by decide, by decide, ?_⟩
  have h : numberOfImage 0 = 0 := by
    unfold numberOfImage
    rw [(by decide : significand 0 = 0), Nat.cast_zero, mul_zero, zero_mul]
  rw [h, zero_mul, abs_zero]
  exact lt_trans (by norm_num) two_lt_overflowBound

theorem witness_MultiplierOneIsASingleRounding : ∃ N : Int, N < 0 ∧ -16665 ≤ N ∧ N ≤ 16665 := ⟨-16665, by decide⟩

theorem witness_BoundedMultipliersGiveOrdinaryValues : ∃ (N : Int) (m m' : Decimal), -16665 ≤ N ∧ N ≤ 16665 ∧
    m.coefficient = 0 ∧ (10 : Rat) ^ (-290 : Int) ≤ |decimalNumber m'| ∧
      |decimalNumber m'| ≤ (10 : Rat) ^ (290 : Int) := by
  have h : |decimalNumber ⟨1000, 0⟩| = (10 : Rat) ^ (3 : Int) := by norm_num [decimalNumber]
  refine ⟨-16665, ⟨0, 0⟩, ⟨1000, 0⟩, by decide, by decide, rfl, ?_, ?_⟩ <;> rw [h] <;>
    exact zpow_le_zpow_right₀ (by norm_num) (by norm_num)

theorem witness_SelectorsFollowTheirFlags : ∃ (P : Packet) (m : Measurement),
    decodeInput t1 .binary64 (packetBytes P) = .ok m := ⟨⟨0, 1, 2, 3, 4, 0x0b, 0x0E, 0x0E, 0x0A⟩, _, rfl⟩

theorem witness_BothCurrentTypesAlwaysFail : ∃ (s t : State), acDc.option2Byte.getLsbD 2 = true ∧
    acDc.option2Byte.getLsbD 3 = true ∧ step { s with stream := [packetBytes acDc] } = .next t :=
  ⟨withRegistry t1, _, by decide, by decide, rfl⟩

theorem witness_RecordIsReadOnlyWhileValid : ∃ (s s' : State) (m : Measurement), s.VALID = 0 ∧ s'.VALID = 1 ∧
    s'.M = some m := ⟨State.reset, State.reset.emit default, default, rfl, rfl, rfl⟩

theorem witness_RegisterImageGivesTheRecordBack : ∃ (m m' : Measurement) (g g' : RegisterImage),
    recordFits m = true ∧ m.operation = .normal ∧ recordFits m' = true ∧ m'.operation = .overload ∧ g.current = 3 ∧
      g'.peak = 3 :=
  ⟨{ (default : Measurement) with value := some 0, displayValue := some ⟨-16665, 3⟩ },
    { (default : Measurement) with operation := .overload }, { imageOf 0 default with current := 3 },
    { imageOf 0 default with peak := 3 }, by decide, rfl, by decide, rfl, rfl, rfl⟩

theorem witness_HumanLineHasTwoForms : ∃ (m m' : Measurement) (v : DisplayValue), m.operation = .normal ∧
    m.displayValue = some v ∧ m'.operation = .overload :=
  ⟨{ (default : Measurement) with displayValue := some ⟨6000, 3⟩ }, { (default : Measurement) with operation := .overload },
    _, rfl, rfl, rfl⟩

theorem witness_ScenarioOneMeasuresSixVolts : ∃ s : State, s.stage = .idle ∧ registryAdmissible s.REG = true ∧
    s.numerics = .binary64 := ⟨withRegistry t1, rfl, by decide, rfl⟩

end Sys2Proof.Tests
end

section
/-! PROOF. The decoder against the opcode table (30_encoding.md R79, R80, R82): a row reads the function code, JUDGE and the
two fixed-zero bits of a word and nothing else, so its rows are found by a finite check of those bits. -/

namespace Sys2Proof.OpcodeRows

open Sys2Proof Sys2Proof.Machine

/-- The rows of the opcode table that a word belongs to (R79). -/
def rowsOf (W : Word72) : List OpcodeRow := opcodeTable.filter fun row => rowMatches row W

/-- The word with a given function code and JUDGE bit and every other bit 0. -/
def selectorWord (c : Nibble) (judge : Bool) : Word72 :=
  c.setWidth 72 <<< 24 ||| (BitVec.ofBool judge).setWidth 72 <<< 19

/-- Fields with a given JUDGE bit and everything else 0. -/
def judgeFields (judge : Bool) : Fields :=
  { (default : Fields) with flags := { (default : Flags) with JUDGE := judge } }

/-- A word of a row has the row's bit wherever the row's mask is set (R79). -/
theorem getLsbD_of_rowMatches {row : OpcodeRow} {W : Word72} {k : Nat} (hrow : rowMatches row W = true)
    (hk : row.mask.getLsbD k = true) : W.getLsbD k = row.bits.getLsbD k := by
  have hbits : W &&& row.mask = row.bits := by simpa [rowMatches] using hrow
  rw [← hbits, BitVec.getLsbD_and, hk, Bool.and_true]

/-- Every row asks for both fixed-zero bits to be 0 (R79, R82). -/
theorem opcodeTable_fixedZero : ∀ row ∈ opcodeTable, ∀ k ∈ [0, 8],
    row.mask.getLsbD k = true ∧ row.bits.getLsbD k = false := by decide

/-- No row tests a bit outside the mask of FREQ and DUTY (R79). -/
theorem opcodeTable_mask : ∀ row ∈ opcodeTable, maskByCodeAndJudge &&& row.mask = row.mask := by decide

/-- A word with a fixed-zero bit set belongs to no row (R82). -/
theorem rowsOf_eq_nil_of_fixedZero {W : Word72} {k : Nat} (hk : k ∈ [0, 8]) (hset : W.getLsbD k = true) :
    rowsOf W = [] := by
  refine List.filter_eq_nil_iff.mpr fun row hrow hmatch => ?_
  obtain ⟨hmask, hbits⟩ := opcodeTable_fixedZero row hrow k hk
  have hclear : W.getLsbD k = false := (getLsbD_of_rowMatches hmatch hmask).trans hbits
  exact Bool.false_ne_true (hclear.symm.trans hset)

/-- The bits outside the mask of FREQ and DUTY do not change the rows of a word. -/
theorem rowsOf_and_maskByCodeAndJudge (W : Word72) : rowsOf (W &&& maskByCodeAndJudge) = rowsOf W := by
  refine List.filter_congr fun row hrow => ?_
  rw [rowMatches, rowMatches, BitVec.and_assoc, opcodeTable_mask row hrow]

/-- With the fixed-zero bits clear, the mask of FREQ and DUTY leaves the function code and JUDGE (R71, R79). -/
theorem and_maskByCodeAndJudge {W : Word72} (h0 : W.getLsbD 0 = false) (h8 : W.getLsbD 8 = false) :
    W &&& maskByCodeAndJudge = selectorWord (functionCode (packetOfWord W)) (W.getLsbD 19) := by
  have h0' : W[0] = false := h0
  have h8' : W[8] = false := h8
  apply BitVec.eq_of_getLsbD_eq
  intro k hk
  interval_cases k <;>
    simp [selectorWord, maskByCodeAndJudge, functionCode, packetOfWord, lo4, h0', h8']

/-- Each function code and JUDGE bit select one row, the one the decoder takes (R80, R81). -/
theorem mnemonics_rowsOf_selectorWord : ∀ c judge, (rowsOf (selectorWord c judge)).map (·.mnemonic) =
    [mnemonicOf (instrOf c (judgeFields judge))] := by decide

/-- The mnemonic depends on the function code and JUDGE alone (R80, R81). -/
theorem mnemonicOf_instrOf (c : Nibble) (p : Fields) :
    mnemonicOf (instrOf c p) = mnemonicOf (instrOf c (judgeFields p.flags.JUDGE)) := by
  unfold instrOf
  split
  case h_3 => cases h : p.flags.JUDGE <;> simp [judgeFields, mnemonicOf]
  all_goals rfl

/-- A word without a fixed-zero bit belongs to one row, the one the decoder takes (R79, R80). -/
theorem mnemonics_rowsOf {W : Word72} (h0 : W.getLsbD 0 = false) (h8 : W.getLsbD 8 = false) {p : Fields}
    (hp : p.flags.JUDGE = W.getLsbD 19) :
    (rowsOf W).map (·.mnemonic) = [mnemonicOf (instrOf (functionCode (packetOfWord W)) p)] := by
  rw [← rowsOf_and_maskByCodeAndJudge, and_maskByCodeAndJudge h0 h8, mnemonics_rowsOf_selectorWord,
    mnemonicOf_instrOf _ p, hp]

/-- A word with a fixed-zero bit set is the illegal encoding (R82). -/
theorem decodePacket_of_fixedZero {W : Word72} (h : W.getLsbD 0 = true ∨ W.getLsbD 8 = true) :
    decodePacket (packetOfWord W) = .error .InvalidStatusBits := by
  have hset : ((packetOfWord W).option1Byte.getLsbD 0 || (packetOfWord W).option2Byte.getLsbD 0) = true := by
    simpa [packetOfWord, or_comm] using h
  rw [decodePacket_eq, stepOne_eq, if_pos hset]
  rfl

/-- A word without a fixed-zero bit decodes by its function code, with JUDGE its bit 19 (R71, R79). -/
theorem decodePacket_of_fixedZero_clear {W : Word72} (h0 : W.getLsbD 0 = false) (h8 : W.getLsbD 8 = false) :
    ∃ p : Fields, p.flags.JUDGE = W.getLsbD 19 ∧
      decodePacket (packetOfWord W) = .ok (instrOf (functionCode (packetOfWord W)) p) := by
  have hclear : ¬ ((packetOfWord W).option1Byte.getLsbD 0 || (packetOfWord W).option2Byte.getLsbD 0) = true := by
    simp_all [packetOfWord]
  rw [decodePacket_eq, stepOne_eq, if_neg hclear]
  exact ⟨_, by simp [fieldsOf, packetOfWord], rfl⟩

/-- Settles O9: a word with a fixed-zero bit set belongs to no row and is refused; every other word belongs to the one row
that the decoder takes. -/
theorem decoderFollowsTheOpcodeTable : Obligations.DecoderFollowsTheOpcodeTable := by
  intro W
  change (∀ i, _ → (rowsOf W).map _ = _) ∧ (rowsOf W = [] ↔ _) ∧ (rowsOf W = [] ↔ _)
  by_cases hbit : W.getLsbD 0 = true ∨ W.getLsbD 8 = true
  · have hdec := decodePacket_of_fixedZero hbit
    have hrows : rowsOf W = [] :=
      hbit.elim (rowsOf_eq_nil_of_fixedZero (by decide)) (rowsOf_eq_nil_of_fixedZero (by decide))
    exact ⟨fun i hi => by simp [hdec] at hi, iff_of_true hrows hdec, iff_of_true hrows hbit⟩
  · obtain ⟨h0, h8⟩ : W.getLsbD 0 = false ∧ W.getLsbD 8 = false := by simpa using hbit
    obtain ⟨p, hjudge, hdec⟩ := decodePacket_of_fixedZero_clear h0 h8
    have hrows := mnemonics_rowsOf h0 h8 hjudge
    have hne : rowsOf W ≠ [] := fun hnil => by simp [hnil] at hrows
    refine ⟨fun i hi => ?_, iff_of_false hne (by simp [hdec]), iff_of_false hne hbit⟩
    obtain rfl := Except.ok.inj (hdec.symm.trans hi)
    exact hrows

end Sys2Proof.OpcodeRows
end

section
/-! PROOF. What a DECODE answers as a function of its input, said once: the errors of the single steps, steps 2 to 11 as the
record `recordOf`, and the decision tree of R208. -/

namespace Sys2Proof.Machine

open Sys2Proof.Claims

/-! The steps that can fail. -/

theorem lo4_eq_setWidth (v : Byte) : lo4 v = v.setWidth 4 := by
  apply BitVec.eq_of_toNat_eq
  simp [lo4]

/-- Step 1 in the words of the byte layout table (R54, R108). -/
theorem stepOne_eq_layoutFlags (P : Packet) :
    stepOne P = if fixedZeroBitSet P then .error .InvalidStatusBits else .ok (layoutFlags P) :=
  stepOne_eq P

theorem stepOne_ok {P : Packet} {F : Flags} (h : stepOne P = .ok F) : F = layoutFlags P := by
  rw [stepOne_eq_layoutFlags] at h
  split at h
  · cases h
  · exact (Except.ok.inj h).symm

theorem stepOne_error {P : Packet} {k : ErrorKind} (h : stepOne P = .error k) : k = .InvalidStatusBits := by
  rw [stepOne_eq_layoutFlags] at h
  split at h
  · exact (Except.error.inj h).symm
  · cases h

theorem stepTwo_error {REG : Registry} {c : Nibble} {k : ErrorKind} (h : stepTwo REG c = .error k) :
    k = .UnknownFunction := by
  cases hr : registryAt REG c with
  | none => exact Except.error.inj (h.symm.trans (stepTwo_unregistered hr))
  | some e => exact nomatch h.symm.trans (stepTwo_registered hr)

/-- The two errors of step 3 (R131, R132). -/
theorem stepThree_error {e : FunctionEntry} {r : Nibble} {k : ErrorKind} (h : stepThree e r = .error k) :
    k = .UnknownRange ∨ k = .UnsupportedMode := by
  cases ht : e.rangeTable with
  | none => exact .inr (Except.error.inj (h.symm.trans (stepThree_absent r ht)))
  | some table =>
    rw [stepThree_present r ht] at h
    cases hd : table[r.toNat]? with
    | none => exact .inl (Except.error.inj (h.symm.trans (rlookup_beyond (List.getElem?_eq_none_iff.mp hd))))
    | some rd => exact nomatch h.symm.trans (rlookup_inside hd)

theorem stepFive_both {F : Flags} (h : (F.AC && F.DC) = true) : stepFive F = .error .ConflictingCurrentType := if_pos h

theorem stepFive_not_both {F : Flags} (h : (F.AC && F.DC) = false) :
    stepFive F = .ok (if F.DC then some .DC else if F.AC then some .AC else none) :=
  if_neg (by simp [h])

/-- What step 5 needs and gives (R152, R153). -/
theorem stepFive_ok {F : Flags} {c : Option CurrentType} (h : stepFive F = .ok c) :
    (F.AC && F.DC) = false ∧ c = if F.DC then some .DC else if F.AC then some .AC else none := by
  cases hb : F.AC && F.DC with
  | true => exact nomatch h.symm.trans (stepFive_both hb)
  | false => exact ⟨rfl, Except.ok.inj (h.symm.trans (stepFive_not_both hb))⟩

theorem stepFive_error {F : Flags} {k : ErrorKind} (h : stepFive F = .error k) : k = .ConflictingCurrentType := by
  cases hb : F.AC && F.DC with
  | true => exact Except.error.inj (h.symm.trans (stepFive_both hb))
  | false => exact nomatch h.symm.trans (stepFive_not_both hb)

/-! Steps 2 to 11. -/

section
variable {REG : Registry} {fmt : FloatFormat} {c : Nibble} {p : Fields} {e : FunctionEntry} {rd : RangeDescriptor}
  {k : ErrorKind}

theorem measure_stepTwo_error (h2 : stepTwo REG c = .error k) : measure REG fmt c p = .error k := by
  simp only [measure, bind, Except.bind, h2]

theorem measure_stepThree_error (h2 : stepTwo REG c = .ok e) (h3 : stepThree e p.r = .error k) :
    measure REG fmt c p = .error k := by
  simp only [measure, bind, Except.bind, h2, h3]

theorem measure_stepFive_error (h2 : stepTwo REG c = .ok e) (h3 : stepThree e p.r = .ok rd)
    (h5 : stepFive p.flags = .error k) : measure REG fmt c p = .error k := by
  simp only [measure, bind, Except.bind, h2, h3, h5]

end

/-- Step 8 gives the signed display integer of R175. -/
theorem stepEight_eq_displayInteger (p : Fields) : stepEight p.d0 p.d1 p.d2 p.d3 p.flags = displayInteger p := by
  unfold stepEight displayInteger displayMagnitude
  split <;> push_cast <;> ring

/-- Steps 6 to 11 with the current type of step 5 give the record that the spec's tables state. -/
theorem stepEleven_eq_recordOf (fmt : FloatFormat) (p : Fields) (w : Working) :
    stepEleven p.flags w ⟨if p.flags.DC then some .DC else if p.flags.AC then some .AC else none, stepSix p.flags,
        stepSeven p.flags⟩
      (stepTen (stepSix p.flags) (stepNine fmt (stepEight p.d0 p.d1 p.d2 p.d3 p.flags) w.rd)) =
      recordOf fmt p w.mode w.unit w.rd := by
  rw [stepEight_eq_displayInteger]
  cases hOL : p.flags.OL <;> simp [stepEleven, stepTen, stepNine, stepSix, stepSeven, recordOf, peakOf, scaledValue,
    displayDecimal, hOL]

/-- Step 4 chooses between the two records of a row (R150). -/
theorem recordOf_stepFour (fmt : FloatFormat) (p : Fields) (e : FunctionEntry) (rd : RangeDescriptor) :
    recordOf fmt p (stepFour p.flags (workingOf e rd)).mode (stepFour p.flags (workingOf e rd)).unit
      (stepFour p.flags (workingOf e rd)).rd = rowRecord fmt p e rd := by
  unfold stepFour rowRecord workingOf
  simp only []
  split <;> rfl

/-- Steps 2 to 11 give the row's record when no step fails (R138, R202). -/
theorem measure_eq_rowRecord {REG : Registry} {c : Nibble} {p : Fields} {e : FunctionEntry} {rd : RangeDescriptor}
    (fmt : FloatFormat) (h2 : stepTwo REG c = .ok e) (h3 : stepThree e p.r = .ok rd)
    (h5 : (p.flags.AC && p.flags.DC) = false) : measure REG fmt c p = .ok (rowRecord fmt p e rd) := by
  rw [measure_of_steps fmt h2 h3 (stepFive_not_both h5), stepEleven_eq_recordOf, recordOf_stepFour]

/-! DECODE of an input. -/

@[simp] theorem codeOf_instrOf (c : Nibble) (p : Fields) : codeOf (instrOf c p) = c := by
  have hcode : ∀ (c : Nibble) (judge : Bool), codeOf (instrOf c (OpcodeRows.judgeFields judge)) = c := by decide
  refine Eq.trans ?_ (hcode c p.flags.JUDGE)
  unfold instrOf
  split
  case h_3 => cases h : p.flags.JUDGE <;> simp [OpcodeRows.judgeFields, codeOf]
  all_goals rfl

@[simp] theorem fieldsIn_instrOf (c : Nibble) (p : Fields) : fieldsIn (instrOf c p) = p := by
  unfold instrOf
  split
  case h_3 => split <;> rfl
  all_goals rfl

/-- The fields of a packet with its own flags are those of the byte layout table (R71). -/
theorem fieldsOf_layoutFlags (P : Packet) : fieldsOf P (layoutFlags P) = layoutFields P := by
  simp [fieldsOf, layoutFields, rangeIndex, lo4_eq_setWidth]

/-- DECODE of nine bytes: step 1, then steps 2 to 11 on the packet's code and fields (R202). -/
theorem decodeInput_packetBytes (REG : Registry) (fmt : FloatFormat) (P : Packet) :
    decodeInput REG fmt (packetBytes P) =
      (stepOne P).bind fun F => measure REG fmt (functionCode P) (fieldsOf P F) := by
  unfold decodeInput decode
  rw [packetOf_packetBytes]
  simp only [decodePacket_eq]
  cases stepOne P with
  | error k => rfl
  | ok F => simp [Except.map, Except.bind]

theorem eq_packetBytes_of_packetOf {b : List Byte} {P : Packet} (h : packetOf b = some P) : b = packetBytes P := by
  unfold packetOf at h
  split at h
  · cases h
    rfl
  · cases h

theorem decodeInput_of_packetOf_none {REG : Registry} {fmt : FloatFormat} {b : List Byte} (h : packetOf b = none) :
    decodeInput REG fmt b = .error .FramingError := by
  simp only [decodeInput, decode, h]

theorem outcomeTree_of_packetOf_none {REG : Registry} {fmt : FloatFormat} {b : List Byte} (h : packetOf b = none) :
    outcomeTree REG fmt b = .error .FramingError := by
  unfold outcomeTree
  split
  · cases h
  · rfl

/-- An emitted record is that of `measure` on the packet's layout fields, and the packet passed step 1. -/
theorem decodeInput_packetBytes_ok {REG : Registry} {fmt : FloatFormat} {P : Packet} {m : Measurement}
    (h : decodeInput REG fmt (packetBytes P) = .ok m) :
    measure REG fmt (functionCode P) (layoutFields P) = .ok m := by
  rw [decodeInput_packetBytes] at h
  cases h1 : stepOne P with
  | error k => rw [h1] at h; cases h
  | ok F =>
    rw [h1, stepOne_ok h1] at h
    rwa [← fieldsOf_layoutFlags]

/-- The tree on nine bytes, as far as its first test (R208). -/
theorem outcomeTree_fixedZero {REG : Registry} {fmt : FloatFormat} {P : Packet} (h : fixedZeroBitSet P = true) :
    outcomeTree REG fmt (packetBytes P) = .error .InvalidStatusBits := if_pos h

/-- Below its first test the tree is steps 2 to 11 in their order (R208). -/
theorem outcomeTree_eq_measure {REG : Registry} {fmt : FloatFormat} {P : Packet} (h : fixedZeroBitSet P = false) :
    outcomeTree REG fmt (packetBytes P) = measure REG fmt (functionCode P) (layoutFields P) := by
  have hc : functionCode P = P.functionByte.setWidth 4 := lo4_eq_setWidth _
  refine (if_neg (by simp [h])).trans ?_
  rw [hc]
  cases hr : registryAt REG (P.functionByte.setWidth 4) with
  | none => exact (measure_stepTwo_error (stepTwo_unregistered hr)).symm
  | some e =>
    have h2 := stepTwo_registered hr
    cases ht : e.rangeTable with
    | none =>
      simp only [ht]
      exact (measure_stepThree_error h2 (stepThree_absent _ ht)).symm
    | some table =>
      have h3 := stepThree_present (layoutFields P).r ht
      simp only [ht]
      cases hd : table[(P.rangeByte.setWidth 4).toNat]? with
      | none =>
        have hbeyond := h3.trans (rlookup_beyond (List.getElem?_eq_none_iff.mp hd))
        exact (measure_stepThree_error h2 hbeyond).symm
      | some rd =>
        have hinside := h3.trans (rlookup_inside hd)
        cases h5 : P.option2Byte.getLsbD 2 && P.option2Byte.getLsbD 3 with
        | true => exact (measure_stepFive_error h2 hinside (stepFive_both h5)).symm
        | false => exact (measure_eq_rowRecord fmt h2 hinside h5).symm

/-- DECODE answers what the decision tree answers, for every input (R206, R208). -/
theorem decodeInput_eq_outcomeTree (REG : Registry) (fmt : FloatFormat) (b : List Byte) :
    decodeInput REG fmt b = outcomeTree REG fmt b := by
  cases hp : packetOf b with
  | none => rw [decodeInput_of_packetOf_none hp, outcomeTree_of_packetOf_none hp]
  | some P =>
    rw [eq_packetBytes_of_packetOf hp, decodeInput_packetBytes, stepOne_eq_layoutFlags]
    cases hz : fixedZeroBitSet P with
    | true => exact (outcomeTree_fixedZero hz).symm
    | false =>
      rw [outcomeTree_eq_measure hz, ← fieldsOf_layoutFlags]
      rfl

end Sys2Proof.Machine
end

section
/-! PROOF. The machine's invariant: what each write of the state needs to keep it, and that reset meets it and every step of
the machine keeps it. -/

namespace Sys2Proof.Machine

open Sys2Proof.Claims

/-! The display integer and the numbers of a record. -/

/-- The display integer's range, and the narrower one of decimal digits (R174). -/
theorem stepEight_range (d0 d1 d2 d3 : Nibble) (F : Flags) :
    (-16665 ≤ stepEight d0 d1 d2 d3 F ∧ stepEight d0 d1 d2 d3 F ≤ 16665) ∧
      (d0.toNat ≤ 9 → d1.toNat ≤ 9 → d2.toNat ≤ 9 → d3.toNat ≤ 9 →
        -9999 ≤ stepEight d0 d1 d2 d3 F ∧ stepEight d0 d1 d2 d3 F ≤ 9999) := by
  have h0 := d0.isLt
  have h1 := d1.isLt
  have h2 := d2.isLt
  have h3 := d3.isLt
  unfold stepEight displayMagnitude
  split <;> omega

theorem integerInRange_stepEight (d0 d1 d2 d3 : Nibble) (F : Flags) :
    integerInRange (stepEight d0 d1 d2 d3 F) = true :=
  decide_eq_true (stepEight_range d0 d1 d2 d3 F).1

/-- Step 9 gives both numbers (R177, R181). -/
theorem numbersFit_stepNine (fmt : FloatFormat) {N : Int} (rd : RangeDescriptor) (h : integerInRange N = true) :
    numbersFit .normal (stepNine fmt N rd) = true := h

/-- Step 10 leaves the numbers that the operation asks for (R186). -/
theorem numbersFit_stepTen (o : Operation) {n : Numbers} (h : numbersFit .normal n = true) :
    numbersFit o (stepTen o n) = true := by
  cases o with
  | normal => exact h
  | overload => rfl

theorem recordFits_stepEleven (F : Flags) (w : Working) (x : Selected) (n : Numbers) :
    recordFits (stepEleven F w x n) = numbersFit x.operation n := rfl

/-- The two kinds of record that fit: an overload without numbers, or a normal one with both (R216). -/
theorem numbersFit_cases {o : Operation} {n : Numbers} (h : numbersFit o n = true) :
    (o = .overload ∧ n.displayValue = none ∧ n.value = none) ∨
      (o = .normal ∧ ∃ v x, n.displayValue = some v ∧ n.value = some x ∧ -16665 ≤ v.N ∧ v.N ≤ 16665) := by
  unfold numbersFit at h
  split at h
  · next hdv hval => exact .inl ⟨rfl, hdv, hval⟩
  · next hdv hval => exact .inr ⟨rfl, _, _, hdv, hval, of_decide_eq_true h⟩
  · cases h

/-- Every record that a DECODE emits fits (R174, R186, R216). -/
theorem measure_recordFits {REG : Registry} {fmt : FloatFormat} {c : Nibble} {p : Fields} {m : Measurement}
    (h : measure REG fmt c p = .ok m) : recordFits m = true := by
  obtain ⟨e, rd, cur, -, -, -, rfl⟩ := measure_ok h
  rw [recordFits_stepEleven]
  exact numbersFit_stepTen _ (numbersFit_stepNine _ _ (integerInRange_stepEight _ _ _ _ _))

theorem decodeInput_recordFits {REG : Registry} {fmt : FloatFormat} {b : List Byte} {m : Measurement}
    (h : decodeInput REG fmt b = .ok m) : recordFits m = true := by
  unfold decodeInput at h
  split at h
  · exact measure_recordFits h
  · cases h

/-! The registry. -/

theorem tableFits_none : tableFits none = true := rfl

theorem tableFits_pinTemperature (e : Option FunctionEntry) : tableFits (pinTemperature e) = true := rfl

theorem tableFits_clipEntry (e : Option FunctionEntry) : tableFits (clipEntry e) = true := by
  match e with
  | none => rfl
  | some ⟨_, none, _⟩ => rfl
  | some ⟨_, some t, _⟩ => exact decide_eq_true (List.length_take_le 16 t)

theorem tableFits_pinFrequency (e : Option FunctionEntry) : tableFits (pinFrequency e) = true := by
  unfold pinFrequency
  cases openTable e with
  | none => rfl
  | some t => exact decide_eq_true (List.length_take_le 16 t)

theorem tableFits_pinVoltage (e : Option FunctionEntry) : tableFits (pinVoltage e) = true :=
  decide_eq_true (Nat.succ_le_succ (List.length_take_le 15 _))

/-- Pinning gives an admissible registry, whatever the open contents (R124). -/
theorem registryAdmissible_pinRegistry (R : Registry) : registryAdmissible (pinRegistry R) = true := by
  have hfit : (pinRegistry R).toList.all tableFits = true := by
    simp [pinRegistry, tableFits_clipEntry, tableFits_pinFrequency, tableFits_pinVoltage, tableFits_pinTemperature,
      tableFits_none]
  simp only [registryAdmissible, hfit, Bool.true_and, Bool.and_eq_true]
  exact ⟨⟨⟨(by decide : ("voltage" == "voltage" && voltDescriptor == voltDescriptor) = true),
    (by decide : ("frequency" == "frequency") = true)⟩, (by decide : ("temperature" == "temperature") = true)⟩, rfl⟩

/-! The writes of the state. -/

theorem errorCode_ne_zero (k : ErrorKind) : errorCode k ≠ 0 := by cases k <;> decide

theorem errorCode_ne_seven (k : ErrorKind) : errorCode k ≠ 7 := by cases k <;> decide

theorem State.Inv.enter {s : State} (hs : s.Inv) {g : Stage} (hg : stageFits g = true) : (s.enter g).Inv :=
  { hs with stage := hg }

theorem State.Inv.abort {s : State} (hs : s.Inv) (k : ErrorKind) : (s.abort k).Inv where
  registry := hs.registry
  validRecord := by simp
  validNoError := by simp
  errorCodeUsed := errorCode_ne_seven k
  record := by simp
  stage := rfl
  length := hs.length

theorem State.Inv.emit {s : State} (hs : s.Inv) {m : Measurement} (hm : recordFits m = true) : (s.emit m).Inv where
  registry := hs.registry
  validRecord := by simp
  validNoError := by simp
  errorCodeUsed := by simp
  record := by simpa using hm
  stage := rfl
  length := hs.length

theorem State.Inv.finish {s : State} (hs : s.Inv) {r : Except ErrorKind Measurement}
    (hr : ∀ m, r = .ok m → recordFits m = true) : (s.finish r).Inv := by
  cases r with
  | ok m => exact hs.emit (hr m rfl)
  | error k => exact hs.abort k

theorem State.Inv.accept {s : State} (hs : s.Inv) (b : List Byte) (rest : List (List Byte)) : (s.accept b rest).Inv :=
  { hs with length := presentedLength_lt _ _ }

/-! The step of the machine. -/

/-- An idle machine runs an instruction to its end. -/
theorem exec_idle {s : State} (hi : s.stage = .idle) (i : Instr) :
    exec i s = .next (s.finish (measure s.REG s.numerics (codeOf i) (fieldsIn i))) := by
  rw [exec_eq_decodeRow, State.decodeRow_idle hi]

/-- A step on an input loads it and ends as DECODE of the input ends (R200, R206). -/
theorem step_of_stream_cons {s : State} {b : List Byte} {rest : List (List Byte)} (hi : s.stage = .idle)
    (h : s.stream = b :: rest) :
    step s = .next ((s.accept b rest).finish (decodeInput s.REG s.numerics b)) := by
  rw [step, if_pos hi, State.fetch_cons h]
  simp only [State.decodeLoaded_load, decodeInput]
  cases decode b with
  | error k => rfl
  | ok i => exact exec_idle (s := s.accept b rest) hi i

theorem step_of_stream_nil {s : State} (hi : s.stage = .idle) (h : s.stream = []) : step s = .next s := by
  rw [step, if_pos hi, State.fetch_nil h]

theorem step_next_idle {s t : State} (h : step s = .next t) : s.stage = .idle := by
  unfold step at h
  split at h
  · assumption
  · cases h

/-- Everything a step can do when it answers a next state. -/
theorem step_next_cases {s t : State} (h : step s = .next t) :
    (s.stream = [] ∧ t = s) ∨
      ∃ b rest, s.stream = b :: rest ∧ t = (s.accept b rest).finish (decodeInput s.REG s.numerics b) := by
  have hi := step_next_idle h
  cases hs : s.stream with
  | nil => exact .inl ⟨rfl, (Host.Outcome.next.inj ((step_of_stream_nil hi hs).symm.trans h)).symm⟩
  | cons b rest =>
    exact .inr ⟨b, rest, rfl, (Host.Outcome.next.inj ((step_of_stream_cons hi hs).symm.trans h)).symm⟩

/-- A step on a stream's first input ends as DECODE of that input ends. -/
theorem step_next_of_stream_cons {s t : State} {b : List Byte} {rest : List (List Byte)} (hs : s.stream = b :: rest)
    (h : step s = .next t) : t = (s.accept b rest).finish (decodeInput s.REG s.numerics b) :=
  (Host.Outcome.next.inj ((step_of_stream_cons (step_next_idle h) hs).symm.trans h)).symm

/-! Reset and the step. -/

/-- Settles O3: a step holds the state or ends a DECODE on the loaded input, and loading, emit and abort keep the invariant. -/
theorem stepKeepsTheInvariant : Obligations.StepKeepsTheInvariant := by
  intro s t hs h
  obtain ⟨-, rfl⟩ | ⟨b, rest, -, rfl⟩ := step_next_cases h
  · exact hs
  · exact (hs.accept b rest).finish fun m hm => decodeInput_recordFits hm

/-- Settles O1: every value is that of `State.reset`, whose registry is pinned. -/
theorem resetLeavesTheBlockIdle : Obligations.ResetLeavesTheBlockIdle :=
  ⟨rfl, rfl, rfl, rfl, rfl, rfl, rfl, rfl, registryAdmissible_pinRegistry _⟩

/-- Settles O2: the latch holds no record, and every width holds the length 0. -/
theorem resetMeetsTheInvariant : Obligations.ResetMeetsTheInvariant where
  registry := registryAdmissible_pinRegistry _
  validRecord := by decide
  validNoError := by decide
  errorCodeUsed := by decide
  record := by intro m h; cases h
  stage := rfl
  length := Nat.two_pow_pos lenWidth

end Sys2Proof.Machine
end

section
/-! PROOF. What a caller of the step sees: the status after a DECODE, inputs of another length than nine, ignored bits, runs
over a stream, reset between packets, and the frame of the instructions. -/

namespace Sys2Proof.Machine

open Sys2Proof.Claims

/-! The outcome that a DECODE leaves. -/

theorem errorOfCode_errorCode (k : ErrorKind) : errorOfCode (errorCode k) = some k := by cases k <;> rfl

@[simp] theorem State.lastOutcome_finish (s : State) (r : Except ErrorKind Measurement) :
    (s.finish r).lastOutcome = some r := by
  cases r with
  | ok m => rfl
  | error k => simp [State.lastOutcome, errorOfCode_errorCode]

/-! The end of a DECODE leaves everything but the outputs and the stage as it was (R205, R239). -/

section
variable (s : State) (r : Except ErrorKind Measurement)

@[simp] theorem State.finish_stage : (s.finish r).stage = .idle := by cases r <;> rfl
@[simp] theorem State.finish_P : (s.finish r).P = s.P := by cases r <;> rfl
@[simp] theorem State.finish_LEN : (s.finish r).LEN = s.LEN := by cases r <;> rfl
@[simp] theorem State.finish_REG : (s.finish r).REG = s.REG := by cases r <;> rfl
@[simp] theorem State.finish_numerics : (s.finish r).numerics = s.numerics := by cases r <;> rfl
@[simp] theorem State.finish_stream : (s.finish r).stream = s.stream := by cases r <;> rfl
@[simp] theorem State.finish_freeCount : (s.finish r).freeCount = s.freeCount := by cases r <;> rfl

end

/-! Reading while `VALID` is 1 and while it is 0 (R44). -/

theorem readMeasurement_of_valid {s : State} {m : Measurement} (hv : s.VALID = 1) (hm : s.M = some m) :
    readMeasurement s = .next m := by
  simp only [readMeasurement, hv, hm, if_true]

theorem readMeasurement_of_not_valid {s : State} (hv : s.VALID = 0) :
    readMeasurement s = .fault .measurementHoldsNoValue :=
  if_neg (by simp [hv])

/-- Settles O16: the emit and the abort are the two ends of a DECODE. -/
theorem exactlyOneStatusAfterEveryDecode : Obligations.ExactlyOneStatusAfterEveryDecode := by
  intro s t b rest hs h
  rw [step_next_of_stream_cons hs h]
  cases decodeInput s.REG s.numerics b with
  | ok m => exact .inl ⟨rfl, rfl, m, rfl, readMeasurement_of_valid rfl rfl⟩
  | error k => exact .inr ⟨rfl, errorCode_ne_zero k, errorCode_ne_seven k, rfl, readMeasurement_of_not_valid rfl⟩

/-- Settles O56: both reads follow `VALID` and the latch. -/
theorem recordIsReadOnlyWhileValid : Obligations.RecordIsReadOnlyWhileValid := by
  refine fun s => ⟨fun hv => ?_, fun m hv hm => ?_⟩
  · have hread := readMeasurement_of_not_valid hv
    exact ⟨hread, by rw [readRegisters, hread]⟩
  · have hread := readMeasurement_of_valid hv hm
    exact ⟨hread, by rw [readRegisters, hread]⟩

/-! Inputs of another length than nine. -/

theorem packetOf_eq_none_iff (b : List Byte) : packetOf b = none ↔ b.length ≠ 9 := by
  rw [← Option.not_isSome_iff_eq_none, packetOf_isSome, decide_eq_true_iff]

/-- What `LEN` holds of a count beyond its width is no nine and fits the width (R58). -/
theorem overlongCount_bounds (n : Nat) : overlongCount n ≠ 9 ∧ overlongCount n < 2 ^ lenWidth := by
  obtain ⟨hlt, -⟩ | ⟨-, -, hne, hlt⟩ := presentedLength_cases n (2 ^ lenWidth)
  · exact absurd hlt (lt_irrefl _)
  · exact ⟨hne, hlt⟩

theorem presentedLength_eq_ite (n count : Nat) :
    presentedLength n count = if count < 2 ^ lenWidth then count else overlongCount n := by
  obtain ⟨hlt, h⟩ | ⟨hle, h, -, -⟩ := presentedLength_cases n count
  · rw [h, if_pos hlt]
  · rw [h, if_neg (Nat.not_lt.mpr hle)]

/-- The load of an input of another length than nine reads no byte of it (R24). -/
theorem State.accept_of_length_ne {s : State} {b : List Byte} (rest : List (List Byte)) (hb : b.length ≠ 9) :
    s.accept b rest =
      { s with
        P := Config.unspecifiedPacket s.freeCount
        LEN := if b.length < 2 ^ lenWidth then b.length else overlongCount s.freeCount
        stream := rest
        freeCount := s.freeCount + 1 } := by
  rw [← presentedLength_eq_ite, State.accept, State.load, (packetOf_eq_none_iff b).mpr hb, Option.getD_none]

theorem State.abort_eq_aborted {s : State} (hi : s.stage = .idle) (k : ErrorKind) :
    s.abort k = aborted s (errorCode k) := by
  unfold State.abort aborted
  rw [hi]

/-- Settles O12: such an input fails the framing check, and its load leaves the free packet of the counter. -/
theorem wrongLengthAbortsWithFramingError : Obligations.WrongLengthAbortsWithFramingError := by
  intro s hi
  obtain ⟨hne, hlt⟩ := overlongCount_bounds s.freeCount
  refine ⟨Config.unspecifiedPacket s.freeCount, overlongCount s.freeCount, hne, hlt, fun b rest hb => ?_⟩
  rw [step_of_stream_cons (s := { s with stream := b :: rest }) hi rfl,
    decodeInput_of_packetOf_none ((packetOf_eq_none_iff b).mpr hb), State.finish_error,
    State.accept_of_length_ne rest hb]
  exact congrArg Host.Outcome.next (State.abort_eq_aborted (by exact hi) .FramingError)

/-! Ignored bits. -/

/-- Clearing every high nibble of the presented bytes clears those of the packet (R77). -/
theorem packetOf_map_lo4 (b : List Byte) :
    packetOf ((b.map lo4).map byteOfNibble) = (packetOf b).map meaningfulPart := by
  cases hp : packetOf b with
  | none =>
    have hlen := (packetOf_eq_none_iff b).mp hp
    exact (packetOf_eq_none_iff _).mpr (by simpa using hlen)
  | some P => rw [eq_packetBytes_of_packetOf hp]; rfl

theorem byteOfNibble_lo4_getLsbD (v : Byte) {i : Nat} (hi : i < 4) :
    (byteOfNibble (lo4 v)).getLsbD i = v.getLsbD i := by
  simp [byteOfNibble, lo4, hi, Nat.lt_trans hi (by decide : 4 < 8)]

theorem layoutFlags_meaningfulPart (P : Packet) : layoutFlags (meaningfulPart P) = layoutFlags P := by
  simp only [layoutFlags, meaningfulPart, byteOfNibble_lo4_getLsbD, Nat.reduceLT]

theorem fixedZeroBitSet_meaningfulPart (P : Packet) : fixedZeroBitSet (meaningfulPart P) = fixedZeroBitSet P := by
  simp only [fixedZeroBitSet, meaningfulPart, byteOfNibble_lo4_getLsbD, Nat.reduceLT]

theorem stepOne_meaningfulPart (P : Packet) : stepOne (meaningfulPart P) = stepOne P := by
  rw [stepOne_eq_layoutFlags, stepOne_eq_layoutFlags, layoutFlags_meaningfulPart, fixedZeroBitSet_meaningfulPart]

/-- The decoder reads the 36 meaningful bits only (R77). -/
theorem decodePacket_meaningfulPart (P : Packet) : decodePacket (meaningfulPart P) = decodePacket P := by
  rw [decodePacket_eq, decodePacket_eq, stepOne_meaningfulPart]
  simp [functionCode, fieldsOf, rangeIndex, meaningfulPart]

theorem decode_map_lo4 (b : List Byte) : decode ((b.map lo4).map byteOfNibble) = decode b := by
  unfold decode
  rw [packetOf_map_lo4]
  cases packetOf b with
  | none => rfl
  | some P => exact decodePacket_meaningfulPart P

/-- Settles O18: both inputs decode as their common low nibbles do, and have one length. -/
theorem ignoredBitsHaveNoEffect : Obligations.IgnoredBitsHaveNoEffect := by
  intro s t t' a b rest hab ha hb
  have hmap : a.map lo4 = b.map lo4 := eq_of_beq hab
  have hlen : a.length = b.length := by simpa using congrArg List.length hmap
  have hdec : decode a = decode b := by rw [← decode_map_lo4 a, hmap, decode_map_lo4]
  rw [step_next_of_stream_cons rfl ha, step_next_of_stream_cons rfl hb, decodeInput, hdec, ← decodeInput]
  cases decodeInput s.REG s.numerics b <;> simp [hlen]

/-! Runs over a stream. -/

/-- A run from an idle state shows the outcome of DECODE on each input alone (R20, R270). -/
theorem runOutcomes_eq_decodeInput (n : Nat) (s : State) (hi : s.stage = .idle) (hn : n ≤ s.stream.length) :
    runOutcomes n s = (s.stream.take n).map fun b => some (decodeInput s.REG s.numerics b) := by
  induction n generalizing s with
  | zero => rfl
  | succ n ih =>
    cases hs : s.stream with
    | nil => simp [hs] at hn
    | cons b rest =>
      have hrest := ih ((s.accept b rest).finish (decodeInput s.REG s.numerics b)) (State.finish_stage _ _)
        (by simpa [hs] using hn)
      simp [runOutcomes, step_of_stream_cons hi hs, hrest]

/-- Settles O19, from the outcome of a run and the decision tree as DECODE. -/
theorem runDecodesEachInputAlone : Obligations.RunDecodesEachInputAlone := by
  intro s inputs hi
  rw [runOutcomes_eq_decodeInput _ { s with stream := inputs } hi le_rfl]
  simp [decodeInput_eq_outcomeTree]

/-- Settles O20: a run depends on the registry, the numerics configuration and the stream, which reset keeps. -/
theorem resetIsNotNeededBetweenPackets : Obligations.ResetIsNotNeededBetweenPackets := by
  refine fun s => ⟨rfl, rfl, rfl, rfl, rfl, rfl, rfl, rfl, fun hi n hn => ?_⟩
  rw [runOutcomes_eq_decodeInput n s.resetBlock rfl hn, runOutcomes_eq_decodeInput n s hi hn]
  rfl

/-! The frame of the instructions. -/

/-- Settles O32: every row ends a DECODE by the emit or an abort, which write the outputs alone. -/
theorem instructionsWriteOnlyTheOutputs : Obligations.InstructionsWriteOnlyTheOutputs := by
  intro i s t h
  rw [exec_eq_decodeRow] at h
  obtain ⟨hi, rfl⟩ := State.decodeRow_next h
  refine ⟨hi, ?_, fun k => by rw [State.finish_P], fun c => by rw [State.finish_REG]⟩
  cases measure s.REG s.numerics (codeOf i) (fieldsIn i) <;> simp only [State.finish, State.emit, State.abort, hi]

end Sys2Proof.Machine
end

section
/-! PROOF. The Packet Parser one step at a time: what a single step can do at any stage, said once, and that twelve of them
are the DECODE that the machine's step makes at once. -/

namespace Sys2Proof.Machine

open Sys2Proof.Claims

/-! One equation for each stage; `(s.enter g).enter g'` and the like are `s.enter g'` by their definitions. -/

section
variable (s : State) (F : Flags) (e : FunctionEntry) (w : Working) (c : Option CurrentType) (o : Operation)
  (x : Selected) (N : Int) (n : Numbers)

theorem tick_framing :
    tick (s.enter .framing) = if s.LEN = 9 then s.enter .status else s.abort .FramingError := rfl

theorem tick_status : tick (s.enter .status) = s.proceed (stepOne s.P) .function := by
  cases h : stepOne s.P <;> simp only [tick, State.enter, h, State.proceed, State.abort]

theorem tick_function :
    tick (s.enter (.function F)) = s.proceed (stepTwo s.REG (functionCode s.P)) (.range F) := by
  cases h : stepTwo s.REG (functionCode s.P) <;> simp only [tick, State.enter, h, State.proceed, State.abort]

theorem tick_range :
    tick (s.enter (.range F e)) =
      s.proceed (stepThree e (rangeIndex s.P)) fun rd => .override F e (workingOf e rd) := by
  cases h : stepThree e (rangeIndex s.P) <;> simp only [tick, State.enter, h, State.proceed, State.abort]

theorem tick_override : tick (s.enter (.override F e w)) = s.enter (.current F e (stepFour F w)) := rfl

theorem tick_current : tick (s.enter (.current F e w)) = s.proceed (stepFive F) (.operation F e w) := by
  cases h : stepFive F <;> simp only [tick, State.enter, h, State.proceed, State.abort]

theorem tick_operation : tick (s.enter (.operation F e w c)) = s.enter (.rangeMode F e w c (stepSix F)) := rfl

theorem tick_rangeMode :
    tick (s.enter (.rangeMode F e w c o)) =
      s.enter (.digits F e w { current := c, operation := o, rangeMode := stepSeven F }) := rfl

theorem tick_digits :
    tick (s.enter (.digits F e w x)) =
      s.enter (.scale F e w x
        (stepEight (lo4 s.P.digit0) (lo4 s.P.digit1) (lo4 s.P.digit2) (lo4 s.P.digit3) F)) := rfl

theorem tick_scale :
    tick (s.enter (.scale F e w x N)) = s.enter (.mask F e w x N (stepNine s.numerics N w.rd)) := rfl

theorem tick_mask :
    tick (s.enter (.mask F e w x N n)) = s.enter (.emit F e w x N (stepTen x.operation n)) := rfl

theorem tick_emit : tick (s.enter (.emit F e w x N n)) = s.emit (stepEleven F w x n) := rfl

end

/-! What one step can do. -/

/-- A stage follows another: `S` is one higher, the flag set stays, and the values that later steps rely on fit (R25,
R27). -/
structure Advances (g g' : Stage) : Prop where
  index : (stageIndex g').val = (stageIndex g).val + 1
  flags : ∀ F, stageFlags g = some F → stageFlags g' = some F
  fits : stageFits g = true → stageFits g' = true

/-- The steps at which each error kind is raised (R230). -/
def raisedAt : List (Fin 12 × ErrorKind) :=
  [(0, .FramingError), (1, .InvalidStatusBits), (2, .UnknownFunction), (3, .UnknownRange), (3, .UnsupportedMode),
    (5, .ConflictingCurrentType)]

/-- The three results of one step of the Packet Parser at the stage `g` (R25, R203, R209). -/
inductive Ticked (s : State) (g : Stage) : State → Prop
  | advances (g' : Stage) (h : Advances g g') : Ticked s g (s.enter g')
  | aborts (k : ErrorKind) (h : (stageIndex g, k) ∈ raisedAt) : Ticked s g (s.abort k)
  | emits (m : Measurement) (h : stageIndex g = 11) (hm : stageFits g = true → recordFits m = true) :
      Ticked s g (s.emit m)

/-- A step that can fail advances with its result or aborts with its error. -/
theorem Ticked.of_proceed {α : Type} {s : State} {g : Stage} {r : Except ErrorKind α} {next : α → Stage}
    (hok : ∀ a, Advances g (next a)) (herror : ∀ k, r = .error k → (stageIndex g, k) ∈ raisedAt) :
    Ticked s g (s.proceed r next) := by
  obtain ⟨a, -, h⟩ | ⟨k, hk, h⟩ := s.proceed_cases r next
  · exact h ▸ .advances _ (hok a)
  · exact h ▸ .aborts k (herror k hk)

/-- Every step of the Packet Parser in a DECODE has one of the three results. -/
theorem ticked_enter (s : State) (g : Stage) (hg : g ≠ .idle) : Ticked s g (tick (s.enter g)) := by
  cases g with
  | idle => exact absurd rfl hg
  | framing =>
    rw [tick_framing]
    split
    · exact .advances _ ⟨rfl, by simp [stageFlags], fun _ => rfl⟩
    · exact .aborts _ (by simp [stageIndex, raisedAt])
  | status =>
    rw [tick_status]
    exact .of_proceed (fun F => ⟨rfl, by simp [stageFlags], fun _ => rfl⟩) fun k hk => by
      simp [stepOne_error hk, stageIndex, raisedAt]
  | function F =>
    rw [tick_function]
    exact .of_proceed (fun e => ⟨rfl, fun _ => id, fun _ => rfl⟩) fun k hk => by
      simp [stepTwo_error hk, stageIndex, raisedAt]
  | range F e =>
    rw [tick_range]
    exact .of_proceed (fun rd => ⟨rfl, fun _ => id, fun _ => rfl⟩) fun k hk => by
      rcases stepThree_error hk with rfl | rfl <;> simp [stageIndex, raisedAt]
  | override F e w =>
    rw [tick_override]
    exact .advances _ ⟨rfl, fun _ => id, fun _ => rfl⟩
  | current F e w =>
    rw [tick_current]
    exact .of_proceed (fun c => ⟨rfl, fun _ => id, fun _ => rfl⟩) fun k hk => by
      simp [stepFive_error hk, stageIndex, raisedAt]
  | operation F e w c =>
    rw [tick_operation]
    exact .advances _ ⟨rfl, fun _ => id, fun _ => rfl⟩
  | rangeMode F e w c o =>
    rw [tick_rangeMode]
    exact .advances _ ⟨rfl, fun _ => id, fun _ => rfl⟩
  | digits F e w x =>
    rw [tick_digits]
    exact .advances _ ⟨rfl, fun _ => id, fun _ => integerInRange_stepEight _ _ _ _ F⟩
  | scale F e w x N =>
    rw [tick_scale]
    exact .advances _ ⟨rfl, fun _ => id, numbersFit_stepNine s.numerics w.rd⟩
  | mask F e w x N n =>
    rw [tick_mask]
    exact .advances _ ⟨rfl, fun _ => id, numbersFit_stepTen x.operation⟩
  | emit F e w x N n =>
    rw [tick_emit]
    exact .emits _ rfl id

theorem ticked (s : State) (hbusy : s.stage ≠ .idle) : Ticked s s.stage (tick s) := ticked_enter s s.stage hbusy

theorem tick_idle {s : State} (hi : s.stage = .idle) : tick s = s := by
  unfold tick
  rw [hi]

theorem Advances.ne_idle {g g' : Stage} (h : Advances g g') : g' ≠ .idle := by
  rintro rfl
  exact Nat.succ_ne_zero _ h.index.symm

/-- Settles O4: each of the three results keeps the invariant. -/
theorem parserStepKeepsTheInvariant : Obligations.ParserStepKeepsTheInvariant := by
  intro s hs
  by_cases hi : s.stage = .idle
  · rwa [tick_idle hi]
  · have h := ticked s hi
    generalize tick s = t at h ⊢
    cases h with
    | advances g' h => exact hs.enter (h.fits hs.stage)
    | aborts k h => exact hs.abort k
    | emits m h hm => exact hs.emit (hm hs.stage)

/-- Settles O35: the three results are the three disjuncts. -/
theorem parserStepAdvancesByOneOrEnds : Obligations.ParserStepAdvancesByOneOrEnds := by
  intro s hbusy
  have h := ticked s hbusy
  generalize tick s = t at h ⊢
  cases h with
  | advances g' h => exact .inl ⟨h.ne_idle, h.index⟩
  | aborts k h => exact .inr (.inr ⟨k, rfl, h⟩)
  | emits m h hm => exact .inr (.inl ⟨h, m, rfl⟩)

/-- Settles O38: step 1 gives the flags of the layout table, and a step that advances keeps the flag set. -/
theorem flagsAreWrittenOnceByStepOne : Obligations.FlagsAreWrittenOnceByStepOne := by
  refine fun s => ⟨fun hstage hclear => ?_, fun F hF => ?_⟩
  · have htick : tick (s.enter s.stage) = _ := hstage ▸ tick_status s
    rw [stepOne_eq_layoutFlags, hclear] at htick
    exact htick
  · have hbusy : s.stage ≠ .idle := by
      intro hi
      rw [State.F, hi] at hF
      cases hF
    have h := ticked s hbusy
    generalize tick s = t at h ⊢
    cases h with
    | advances g' h => exact .inl (h.flags F hF)
    | aborts k h => exact .inr rfl
    | emits m h hm => exact .inr rfl

/-! Twelve steps make a whole DECODE. -/

theorem ticks_idle (n : Nat) {s : State} (hi : s.stage = .idle) : ticks n s = s := by
  induction n with
  | zero => rfl
  | succ n ih => rw [ticks, tick_idle hi, ih]

/-- After a step that can fail, the steps that follow run on its result, and an error has ended the DECODE (R203). -/
theorem ticks_proceed {α : Type} {n : Nat} {s : State} {r : Except ErrorKind α} {next : α → Stage}
    {rest : α → Except ErrorKind Measurement}
    (h : ∀ a, r = .ok a → ticks n (s.enter (next a)) = s.finish (rest a)) :
    ticks n (s.proceed r next) = s.finish (r.bind rest) := by
  cases r with
  | ok a => exact h a rfl
  | error k => exact ticks_idle n rfl

/-- From step 2 on, ten steps are steps 2 to 11 (R202). -/
theorem ticks_function (s : State) (F : Flags) :
    ticks 10 (s.enter (.function F)) =
      s.finish (measure s.REG s.numerics (functionCode s.P) (fieldsOf s.P F)) := by
  rw [ticks, tick_function]
  refine ticks_proceed fun e _ => ?_
  rw [ticks, tick_range]
  refine ticks_proceed fun rd _ => ?_
  rw [ticks, tick_override, ticks, tick_current]
  refine ticks_proceed fun c _ => ?_
  rw [ticks, tick_operation, ticks, tick_rangeMode, ticks, tick_digits, ticks, tick_scale, ticks, tick_mask, ticks,
    tick_emit]
  rfl

/-- Twelve steps from a request are a whole DECODE of what `LEN` and the packet registers hold (R202). -/
theorem ticks_framing (s : State) :
    ticks 12 (s.enter .framing) =
      s.finish (if s.LEN = 9 then
        (stepOne s.P).bind fun F => measure s.REG s.numerics (functionCode s.P) (fieldsOf s.P F)
      else .error .FramingError) := by
  rw [ticks, tick_framing]
  split
  · rw [ticks, tick_status]
    exact ticks_proceed fun F _ => ticks_function s F
  · exact ticks_idle 11 rfl

/-- On a loaded input that is DECODE of the input (R202, R206). -/
theorem ticks_accept (s : State) (b : List Byte) (rest : List (List Byte)) :
    ticks 12 ((s.accept b rest).enter .framing) =
      (s.accept b rest).finish (decodeInput s.REG s.numerics b) := by
  rw [ticks_framing, State.accept_LEN]
  simp only [presentedLength_eq_nine]
  by_cases hlen : b.length = 9
  · obtain ⟨P, hP⟩ := Option.isSome_iff_exists.mp ((packetOf_isSome b).trans (decide_eq_true hlen))
    rw [if_pos hlen, eq_packetBytes_of_packetOf hP, decodeInput_packetBytes]
    rfl
  · rw [if_neg hlen, decodeInput_of_packetOf_none ((packetOf_eq_none_iff b).mpr hlen)]

/-- Settles O34: both sides end as DECODE of the input ends on the loaded state. -/
theorem stepIsTheTwelveParserSteps : Obligations.StepIsTheTwelveParserSteps := by
  intro s b rest hi
  refine ⟨s.accept b rest, (s.accept b rest).enter .framing, if_pos hi, if_pos hi, ?_⟩
  rw [step_of_stream_cons (s := { s with stream := b :: rest }) hi rfl, ticks_accept]
  rfl

end Sys2Proof.Machine
end

section
/-! PROOF. The fields of an emitted record and its register encoding (10_state.md R33; 42_selector_mux.md). -/

namespace Sys2Proof.Machine

open Sys2Proof.Claims

/-- Settles O53: the flags that `measure` reads are those of the layout table. -/
theorem selectorsFollowTheirFlags : Obligations.SelectorsFollowTheirFlags := by
  intro REG fmt P m h
  obtain ⟨e, rd, c, -, -, h5, rfl⟩ := measure_ok (decodeInput_packetBytes_ok h)
  obtain ⟨hboth, rfl⟩ := stepFive_ok h5
  exact ⟨hboth, rfl, rfl, rfl, rfl, rfl, rfl⟩

/-! The register encoding. -/

/-- A register of 16 bits holds every display integer (R33, R174). -/
theorem toInt_ofInt_displayInteger {N : Int} (hlo : -16665 ≤ N) (hhi : N ≤ 16665) : (BitVec.ofInt 16 N).toInt = N := by
  rw [BitVec.toInt_ofInt]
  exact Int.bmod_eq_of_le (by omega) (by omega)

/-- Settles O43, from the range of step 8. -/
theorem displayIntegerFitsItsRegister : Obligations.DisplayIntegerFitsItsRegister := by
  intro d0 d1 d2 d3 F
  obtain ⟨⟨hlo, hhi⟩, hdecimal⟩ := stepEight_range d0 d1 d2 d3 F
  exact ⟨⟨hlo, hhi⟩, hdecimal, toInt_ofInt_displayInteger hlo hhi, by omega⟩

@[simp] theorem currentOfCode_currentCode (c : Option CurrentType) : currentOfCode (currentCode c) = some c := by
  match c with
  | none => rfl
  | some .DC => rfl
  | some .AC => rfl

@[simp] theorem peakOfCode_peakCode (k : Option Peak) : peakOfCode (peakCode k) = some k := by
  match k with
  | none => rfl
  | some .max => rfl
  | some .min => rfl

@[simp] theorem rangeMode_of_rangeModeCode (r : RangeMode) :
    (if rangeModeCode r = 1#1 then RangeMode.auto else .manual) = r := by
  cases r <;> rfl

@[simp] theorem operation_of_operationCode (o : Operation) :
    (if operationCode o = 1#1 then Operation.overload else .normal) = o := by
  cases o <;> rfl

@[simp] theorem ofBool_beq_one (b : Bool) : (BitVec.ofBool b == 1#1) = b := by cases b <;> rfl

/-- The present bits tell a record's numbers apart from free bits (R33). -/
theorem measurementOfImage_imageOf (n : Nat) {m : Measurement} (h : recordFits m = true) :
    measurementOfImage (imageOf n m) = .next m := by
  obtain ⟨value, unit, displayValue, displayUnit, mode, current, peak, hold, rangeMode, operation, batteryLow⟩ := m
  obtain ⟨-, rfl, rfl⟩ | ⟨-, ⟨N, p⟩, x, rfl, rfl, hlo, hhi⟩ := numbersFit_cases h
  · simp [measurementOfImage, imageOf]
  · simp [measurementOfImage, imageOf, toInt_ofInt_displayInteger hlo hhi]

/-- Settles O57: the numbers of a fitting record lie in their registers' ranges, and 3 is no code of a current type or a
peak. -/
theorem registerImageGivesTheRecordBack : Obligations.RegisterImageGivesTheRecordBack := by
  refine ⟨fun n m hm => measurementOfImage_imageOf n hm, fun g hg => ?_⟩
  rcases hg with hcurrent | hpeak
  · have hc : currentOfCode g.current = none := by rw [hcurrent]; rfl
    simp only [measurementOfImage, hc]
  · have hp : peakOfCode g.peak = none := by rw [hpeak]; rfl
    simp only [measurementOfImage, hp]
    cases currentOfCode g.current <;> rfl

end Sys2Proof.Machine
end

section
/-! PROOF. The memory of the block (20_memory.md): nothing is written before a DECODE ends, and the registry's two lookups
answer the stored value or fail by name. -/

namespace Sys2Proof.Machine

/-- Settles O37: the emit and the aborts end the DECODE, so a step that leaves it in progress only entered a stage. -/
theorem parserStepsBeforeTheEndShowNothing : Obligations.ParserStepsBeforeTheEndShowNothing := by
  intro s hbusy
  have hstart : s.stage ≠ .idle := fun hi => hbusy ((congrArg State.stage (tick_idle hi)).trans hi)
  have h := ticked s hstart
  generalize tick s = t at h hbusy ⊢
  cases h with
  | advances g' h => rfl
  | aborts k h => exact absurd (State.abort_stage s k) hbusy
  | emits m h hm => exact absurd (State.emit_stage s m) hbusy

/-! The registry's lookups, as equivalences. -/

section
variable {REG : Registry} {c : Nibble}

theorem flookup_registered {e : FunctionEntry} (h : registryAt REG c = some e) : flookup REG c = .ok e :=
  stepTwo_registered h

theorem flookup_unregistered (h : registryAt REG c = none) : flookup REG c = .error .UnknownFunction :=
  stepTwo_unregistered h

theorem flookup_eq_ok_iff (e : FunctionEntry) : flookup REG c = .ok e ↔ registryAt REG c = some e := by
  cases hr : registryAt REG c with
  | none => simp [flookup_unregistered hr]
  | some e' => simp [flookup_registered hr]

theorem flookup_eq_unknownFunction_iff : flookup REG c = .error .UnknownFunction ↔ registryAt REG c = none := by
  cases hr : registryAt REG c with
  | none => simp [flookup_unregistered hr]
  | some e => simp [flookup_registered hr]

end

section
variable {table : List RangeDescriptor} {r : Nibble}

theorem rlookup_eq_ok_iff (rd : RangeDescriptor) : rlookup table r = .ok rd ↔ table[r.toNat]? = some rd := by
  cases hd : table[r.toNat]? with
  | none => simp [rlookup_beyond (List.getElem?_eq_none_iff.mp hd)]
  | some rd' => simp [rlookup_inside hd]

theorem rlookup_eq_unknownRange_iff : rlookup table r = .error .UnknownRange ↔ table[r.toNat]? = none := by
  cases hd : table[r.toNat]? with
  | none => simp [rlookup_beyond (List.getElem?_eq_none_iff.mp hd)]
  | some rd => simp [rlookup_inside hd]

end

/-- Settles O41: the lookups answer what the registry and the table hold, and a table holds a descriptor at exactly the
indices below its length. -/
theorem lookupsReturnTheStoredValue : Obligations.LookupsReturnTheStoredValue :=
  ⟨fun _ _ => ⟨flookup_eq_ok_iff, flookup_eq_unknownFunction_iff⟩,
    fun _ _ => ⟨fun rd => (rlookup_eq_ok_iff rd).trans List.getElem?_eq_some_iff,
      rlookup_eq_unknownRange_iff.trans List.getElem?_eq_none_iff⟩⟩

end Sys2Proof.Machine
end

section
/-! PROOF. The encoding of format P9 (30_encoding.md): the encoder and the decoder are inverse to each other up to the
ignored bits, the illegal encoding aborts, and each row aborts where the registry or the flags give a cause. -/

namespace Sys2Proof.Machine

open Sys2Proof.Claims

/-! Nibbles and the flags in them. -/

/-- The nibble's type adds four widths of one bit, so its bits are found by a finite check of the four bits given. -/
theorem getLsbD_nibbleOfBits : ∀ b3 b2 b1 b0,
    (nibbleOfBits b3 b2 b1 b0).getLsbD 3 = b3 ∧ (nibbleOfBits b3 b2 b1 b0).getLsbD 2 = b2 ∧
      (nibbleOfBits b3 b2 b1 b0).getLsbD 1 = b1 ∧ (nibbleOfBits b3 b2 b1 b0).getLsbD 0 = b0 := by decide

theorem getLsbD_lo4 (v : Byte) {k : Nat} (hk : k < 4) : (lo4 v).getLsbD k = v.getLsbD k := by
  simp [lo4, hk]

theorem getLsbD_byteOfNibble (n : Nibble) {k : Nat} (hk : k < 4) : (byteOfNibble n).getLsbD k = n.getLsbD k := by
  rw [← getLsbD_lo4 _ hk, lo4_byteOfNibble]

/-- A byte's low nibble is made of its bits 3 to 0 (R22). -/
theorem nibbleOfBits_getLsbD (v : Byte) :
    nibbleOfBits (v.getLsbD 3) (v.getLsbD 2) (v.getLsbD 1) (v.getLsbD 0) = lo4 v := by
  apply BitVec.eq_of_getLsbD_eq
  intro k hk
  rw [getLsbD_lo4 v hk]
  interval_cases k <;> simp only [getLsbD_nibbleOfBits]

/-! Decoding what was encoded. -/

theorem fixedZeroBitSet_encodePacket (i : Instr) : fixedZeroBitSet (encodePacket i) = false := by
  simp only [fixedZeroBitSet, encodePacket, option1Nibble, option2Nibble, getLsbD_byteOfNibble,
    getLsbD_nibbleOfBits, Nat.reduceLT, Bool.or_false]

/-- The byte layout table finds the ten flags where the encoder put them (R54, R71). -/
theorem layoutFlags_encodePacket (i : Instr) : layoutFlags (encodePacket i) = (fieldsIn i).flags := by
  simp only [layoutFlags, encodePacket, statusNibble, option1Nibble, option2Nibble, getLsbD_byteOfNibble,
    getLsbD_nibbleOfBits, Nat.reduceLT]

theorem stepOne_encodePacket (i : Instr) : stepOne (encodePacket i) = .ok (fieldsIn i).flags := by
  rw [stepOne_eq_layoutFlags, fixedZeroBitSet_encodePacket, layoutFlags_encodePacket]
  rfl

/-- A well-formed instruction is the row of its own code and fields; the hypothesis serves code 0x2 (R80, R81). -/
theorem instrOf_codeOf_fieldsIn {i : Instr} (h : i.wellFormed = true) : instrOf (codeOf i) (fieldsIn i) = i := by
  cases i with
  | freq p =>
    have hclear : p.flags.JUDGE = false := by simpa [Instr.wellFormed] using h
    simp [instrOf, codeOf, fieldsIn, hclear]
  | duty p =>
    have hset : p.flags.JUDGE = true := h
    simp [instrOf, codeOf, fieldsIn, hset]
  | _ => rfl

/-- Settles O7: step 1 reads back the flags, the nibbles give back the code and the fields, and these the row. -/
theorem decodeOfEncodeIsTheInstruction : Obligations.DecodeOfEncodeIsTheInstruction := by
  intro i hwf
  obtain ⟨hcode, hfields⟩ := Laws.EncodingShape.general i
  rw [decode, encode, packetOf_packetBytes]
  simp only [decodePacket_eq, stepOne_encodePacket, Except.map, hcode, hfields, instrOf_codeOf_fieldsIn hwf]

/-! Encoding what was decoded. -/

/-- The decoder's choice of a row keeps the split of code 0x2 on JUDGE (R81). -/
theorem wellFormed_instrOf (c : Nibble) (p : Fields) : (instrOf c p).wellFormed = true := by
  unfold instrOf
  split
  case h_3 => cases h : p.flags.JUDGE <;> simp [Instr.wellFormed, h]
  all_goals rfl

theorem decodePacket_ok {P : Packet} {i : Instr} (h : decodePacket P = .ok i) :
    fixedZeroBitSet P = false ∧ i = instrOf (functionCode P) (fieldsOf P (layoutFlags P)) := by
  rw [decodePacket_eq, stepOne_eq_layoutFlags] at h
  cases hz : fixedZeroBitSet P with
  | true => simp [hz, Except.map] at h
  | false => exact ⟨rfl, by simpa [hz, Except.map] using h.symm⟩

theorem statusNibble_layoutFlags (P : Packet) : statusNibble (layoutFlags P) = lo4 P.statusByte :=
  nibbleOfBits_getLsbD _

/-- With the fixed-zero bits clear, the flags hold all the meaningful bits of the option bytes (R71). -/
theorem optionNibbles_layoutFlags {P : Packet} (h : fixedZeroBitSet P = false) :
    option1Nibble (layoutFlags P) = lo4 P.option1Byte ∧ option2Nibble (layoutFlags P) = lo4 P.option2Byte := by
  obtain ⟨h1, h2⟩ := Bool.or_eq_false_iff.mp h
  rw [← nibbleOfBits_getLsbD, ← nibbleOfBits_getLsbD, h1, h2]
  exact ⟨rfl, rfl⟩

/-- Settles O8: the code, the fields and the ten flags hold each meaningful bit of the packet that is not fixed. -/
theorem encodeOfDecodeClearsTheIgnoredBits : Obligations.EncodeOfDecodeClearsTheIgnoredBits := by
  intro P i h
  obtain ⟨hclear, rfl⟩ := decodePacket_ok h
  obtain ⟨hopt1, hopt2⟩ := optionNibbles_layoutFlags hclear
  refine ⟨wellFormed_instrOf _ _, ?_⟩
  simp only [encodePacket, codeOf_instrOf, fieldsIn_instrOf, fieldsOf, statusNibble_layoutFlags, hopt1, hopt2]
  rfl

/-! The illegal encoding. -/

/-- The load of nine bytes puts them in the packet registers (R21, R24). -/
theorem State.accept_packetBytes (s : State) (P : Packet) (rest : List (List Byte)) :
    s.accept (packetBytes P) rest =
      { s with P := P, LEN := 9, stream := rest, freeCount := s.freeCount + 1 } := rfl

/-- Settles O13: the fixed-zero bits are the first test of the decision tree on nine bytes. -/
theorem fixedZeroBitAbortsWithInvalidStatusBits : Obligations.FixedZeroBitAbortsWithInvalidStatusBits := by
  intro s P rest hi hbit
  have hz : fixedZeroBitSet P = true := Bool.or_eq_true_iff.mpr hbit
  rw [step_of_stream_cons (s := { s with stream := packetBytes P :: rest }) hi rfl, decodeInput_eq_outcomeTree,
    outcomeTree_fixedZero hz, State.finish_error, State.accept_packetBytes]
  exact congrArg Host.Outcome.next (State.abort_eq_aborted (by exact hi) .InvalidStatusBits)

/-! The aborts of the rows. -/

/-- Each row of the table stands with its own code, and its instructions hold the fields they are made of (R80). -/
theorem codeOf_and_fieldsIn_of_mem_allRows (p : Fields) :
    ∀ row ∈ allRows, codeOf (row.1 p) = row.2 ∧ fieldsIn (row.1 p) = p := by
  simp [allRows, parameterRows, codeOf, fieldsIn]

/-- A row whose steps 2 to 11 fail takes the abort of their error (R239). -/
theorem exec_eq_aborted_of_measure_error {row : (Fields → Instr) × Nibble} (hrow : row ∈ allRows) {s : State}
    {p : Fields} {k : ErrorKind} (hi : s.stage = .idle) (h : measure s.REG s.numerics row.2 p = .error k) :
    exec (row.1 p) s = .next (aborted s (errorCode k)) := by
  obtain ⟨hcode, hfields⟩ := codeOf_and_fieldsIn_of_mem_allRows p row hrow
  rw [exec_idle hi, hcode, hfields, h, State.finish_error, State.abort_eq_aborted hi]

/-- Settles O28: step 2 fails. -/
theorem unregisteredCodeAborts : Obligations.UnregisteredCodeAborts :=
  fun _ hrow _ _ hi hreg =>
    exec_eq_aborted_of_measure_error hrow hi (measure_stepTwo_error (stepTwo_unregistered hreg))

/-- Settles O29: step 3 fails before it reads the range index. -/
theorem missingRangeTableAborts : Obligations.MissingRangeTableAborts :=
  fun _ hrow _ p _ hi hreg htable =>
    exec_eq_aborted_of_measure_error hrow hi
      (measure_stepThree_error (stepTwo_registered hreg) (stepThree_absent p.r htable))

/-- Settles O30: the lookup of step 3 fails, before step 4 looks at the mode. -/
theorem rangeIndexBeyondTheTableAborts : Obligations.RangeIndexBeyondTheTableAborts := by
  intro row hrow s p e table hi hreg htable hbeyond
  have h3 : stepThree e p.r = .error .UnknownRange := (stepThree_present p.r htable).trans (rlookup_beyond hbeyond)
  exact exec_eq_aborted_of_measure_error hrow hi (measure_stepThree_error (stepTwo_registered hreg) h3)

/-- Settles O31: steps 2 and 3 succeed and step 5 fails, whatever step 4 made of the mode. -/
theorem bothCurrentTypesAbort : Obligations.BothCurrentTypesAbort := by
  intro row hrow s p e table hi hreg htable hinside hAC hDC
  have h3 : stepThree e p.r = .ok table[p.r.toNat] :=
    (stepThree_present p.r htable).trans (rlookup_inside (List.getElem?_eq_getElem hinside))
  have h5 : stepFive p.flags = .error .ConflictingCurrentType := stepFive_both (by rw [hAC, hDC]; rfl)
  exact exec_eq_aborted_of_measure_error hrow hi (measure_stepFive_error (stepTwo_registered hreg) h3 h5)

/-! Words written out. -/

/-- Settles O10: the decoder runs on each of the six words. -/
theorem writtenOutWordsDecode : Obligations.WrittenOutWordsDecode :=
  ⟨by decide, by decide, by decide, by decide, by decide, by decide⟩

end Sys2Proof.Machine
end

section
/-! PROOF. The Bit-Flag Decoder (40_bitflag_decoder.md): `BFD` over every template, as one comparison and one mapping of
the four slots with their bits. -/

namespace Sys2Proof.Machine

/-! What a template's slots name. -/

@[simp] theorem slotName_eq_some_iff {s : Slot} {n : FlagName} : slotName s = some n ↔ s = .name n := by
  cases s <;> simp [slotName]

/-- A template names no flag in two slots (R111). -/
theorem templateSlot_name_injective {T : Template} {j k : Fin 4} {n : FlagName} (hj : templateSlot T j = .name n)
    (hk : templateSlot T k = .name n) : j = k := by
  have hdistinct : ((List.ofFn (templateSlot T)).filterMap slotName).Nodup := T.distinct
  rw [List.Nodup, List.pairwise_filterMap, List.pairwise_ofFn] at hdistinct
  have hnotlt : ∀ {a b : Fin 4}, templateSlot T a = .name n → templateSlot T b = .name n → ¬ a < b :=
    fun ha hb hlt => hdistinct hlt n (slotName_eq_some_iff.mpr ha) n (slotName_eq_some_iff.mpr hb) rfl
  exact le_antisymm (not_lt.mp (hnotlt hk hj)) (not_lt.mp (hnotlt hj hk))

/-! One slot. -/

/-- What a slot that does not refuse its bit records. -/
def slotRecord (s : Slot) (bit : Bool) : FlagMap := ((slotName s).map (·, bit)).toList

theorem mem_slotRecord {s : Slot} {bit b : Bool} {n : FlagName} :
    (n, b) ∈ slotRecord s bit ↔ s = .name n ∧ bit = b := by
  simp [slotRecord]

/-- A slot refuses its bit exactly when it is the other literal (R102, R103). -/
theorem slotDecode_eq (s : Slot) (bit : Bool) :
    slotDecode s bit = if s = .literal (!bit) then .error .templateMismatch else .ok (slotRecord s bit) := by
  cases s with
  | name n => rfl
  | literal l => cases l <;> cases bit <;> rfl

/-! The four slots. -/

/-- A literal slot differs from its bit, bit `i` against slot `T[3 - i]` (R101, R102). -/
abbrev Mismatches (v : Byte) (T : Template) : Prop := ∃ i : Fin 4, templateSlot T i.rev = .literal (!v.getLsbD i.val)

/-- What the four slots record, from bit 0 up (R101, R103). -/
def bfdMapping (v : Byte) (T : Template) : FlagMap :=
  (List.finRange 4).flatMap fun i => slotRecord (templateSlot T i.rev) (v.getLsbD i.val)

theorem mem_bfdMapping {v : Byte} {T : Template} {n : FlagName} {b : Bool} :
    (n, b) ∈ bfdMapping v T ↔ ∃ i : Fin 4, templateSlot T i.rev = .name n ∧ v.getLsbD i.val = b := by
  simp [bfdMapping, mem_slotRecord]

/-- The slots after one slot are looked at only when that slot does not refuse its bit (R102). -/
theorem slot_bind {refuses : Prop} [Decidable refuses] (m : FlagMap) (rest : FlagMap → Except BfdError FlagMap) :
    ((if refuses then .error .templateMismatch else .ok m) >>= rest) =
      if refuses then .error .templateMismatch else rest m := by
  split <;> rfl

/-- `BFD`, whole: the bits are compared one after the other, and the first mismatch decides (R100). -/
theorem bfd_eq (v : Byte) (T : Template) :
    bfd v T = if Mismatches v T then .error .templateMismatch else .ok (bfdMapping v T) := by
  have hslots : Mismatches v T ↔ T.slot3 = .literal (!v.getLsbD 0) ∨ T.slot2 = .literal (!v.getLsbD 1) ∨
      T.slot1 = .literal (!v.getLsbD 2) ∨ T.slot0 = .literal (!v.getLsbD 3) := by
    simp only [Mismatches, Fin.exists_fin_succ, Fin.exists_fin_zero, or_false]
    rfl
  have hmapping : bfdMapping v T = slotRecord T.slot3 (v.getLsbD 0) ++ slotRecord T.slot2 (v.getLsbD 1) ++
      slotRecord T.slot1 (v.getLsbD 2) ++ slotRecord T.slot0 (v.getLsbD 3) := by
    rw [← List.append_nil (_ ++ slotRecord T.slot0 _), List.append_assoc, List.append_assoc, List.append_assoc]
    rfl
  rw [hmapping]
  simp only [bfd, slotDecode_eq, hslots, ite_or, slot_bind]
  rfl

/-- A template's mapping records one bit under each name it has, so that bit is the one looked up (R103, R111). -/
theorem lookup_bfdMapping_of_name {v : Byte} {T : Template} {i : Fin 4} {n : FlagName}
    (hi : templateSlot T i.rev = .name n) : (bfdMapping v T).lookup n = some (v.getLsbD i.val) := by
  have hfound : ((bfdMapping v T).lookup n).isSome :=
    List.lookup_isSome_iff.mpr ⟨_, mem_bfdMapping.mpr ⟨i, hi, rfl⟩, beq_self_eq_true n⟩
  obtain ⟨b, hb⟩ := Option.isSome_iff_exists.mp hfound
  obtain ⟨l₁, l₂, hsplit, -⟩ := List.lookup_eq_some_iff.mp hb
  obtain ⟨j, hj, rfl⟩ := mem_bfdMapping.mp (hsplit ▸ List.mem_append_cons_self)
  rw [hb, Fin.rev_injective (templateSlot_name_injective hi hj)]

/-- A name that no slot carries is not recorded (R103). -/
theorem lookup_bfdMapping_of_not_name {v : Byte} {T : Template} {n : FlagName}
    (hn : ∀ j : Fin 4, templateSlot T j ≠ .name n) : (bfdMapping v T).lookup n = none := by
  refine List.lookup_eq_none_iff.mpr fun ⟨n', b⟩ hmem => bne_iff_ne.mpr ?_
  rintro rfl
  obtain ⟨i, hi, -⟩ := mem_bfdMapping.mp hmem
  exact hn _ hi

/-! The obligations. -/

/-- Settles O39: a bit differs from a literal exactly when the literal is its negation, and the success branch is the
mapping of the four slots. -/
theorem bfdMatchesSlotsAgainstBits : Obligations.BfdMatchesSlotsAgainstBits := by
  intro v T
  have hmismatch : Mismatches v T ↔
      ∃ (i : Fin 4) (b : Bool), templateSlot T i.rev = .literal b ∧ v.getLsbD i.val ≠ b := by
    refine exists_congr fun i => ⟨fun hi => ⟨_, hi, Bool.self_ne_not _⟩, ?_⟩
    rintro ⟨b, hi, hne⟩
    rw [hi, Bool.eq_not.mpr hne.symm]
  rw [bfd_eq, ← hmismatch]
  split
  case isTrue h => simp [h]
  case isFalse h =>
    refine ⟨by simp [h], fun m hm => ?_⟩
    obtain rfl : bfdMapping v T = m := Except.ok.inj hm
    exact ⟨fun _ _ => lookup_bfdMapping_of_name, fun _ => lookup_bfdMapping_of_not_name⟩

/-- Settles O40: `BFD` is a function of the bits 0 to 3, and these are bits of the low nibble. -/
theorem bfdReadsTheLowNibbleOnly : Obligations.BfdReadsTheLowNibbleOnly := by
  intro v w T h
  have hbits : ∀ i : Fin 4, v.getLsbD i.val = w.getLsbD i.val := fun i => by
    rw [← getLsbD_lo4 v i.isLt, ← getLsbD_lo4 w i.isLt, lo4_eq_setWidth, lo4_eq_setWidth, h]
  simp only [bfd_eq, Mismatches, bfdMapping, hbits]

end Sys2Proof.Machine
end

section
/-! PROOF. The registry (41_registry_lookup.md): admissibility location by location, pinning as a projection onto the
admissible registries, and what the rows answer where the registry resolves their code. -/

namespace Sys2Proof.Machine

open Sys2Proof.Claims

/-! What the parts of admissibility say of one location. -/

section
variable (e : Option FunctionEntry)

theorem tableFits_iff : tableFits e = true ↔ ∀ x t, e = some x → x.rangeTable = some t → t.length ≤ 16 := by
  match e with
  | none => simp [tableFits]
  | some ⟨_, none, _⟩ => exact iff_of_true rfl (by rintro _ _ ⟨⟩ ⟨⟩)
  | some ⟨_, some _, _⟩ =>
    refine decide_eq_true_iff.trans ⟨?_, fun h => h _ _ rfl rfl⟩
    rintro h _ _ ⟨⟩ ⟨⟩
    exact h

theorem voltagePinned_iff : voltagePinned e = true ↔
    ∃ x rest, e = some x ∧ x.modeName = "voltage" ∧ x.rangeTable = some (voltDescriptor :: rest) := by
  match e with
  | none => simp [voltagePinned]
  | some ⟨_, none, _⟩ => simp [voltagePinned]
  | some ⟨_, some [], _⟩ => simp [voltagePinned]
  | some ⟨_, some (_ :: _), _⟩ => simp [voltagePinned]

theorem frequencyPinned_iff : frequencyPinned e = true ↔ ∃ x, e = some x ∧ x.modeName = "frequency" := by
  cases e <;> simp [frequencyPinned]

theorem temperaturePinned_iff : temperaturePinned e = true ↔
    ∃ x, e = some x ∧ x.modeName = "temperature" ∧ x.rangeTable = none := by
  match e with
  | none => simp [temperaturePinned]
  | some ⟨_, none, _⟩ => simp [temperaturePinned]
  | some ⟨_, some _, _⟩ => simp [temperaturePinned]

end

/-! Admissibility of a registry. -/

/-- The function space is the registry's sixteen locations (R51). -/
theorem all_toList_iff_registryAt (R : Registry) (q : Option FunctionEntry → Bool) :
    R.toList.all q = true ↔ ∀ c, q (registryAt R c) = true := by
  rw [List.all_eq_true]
  constructor
  · intro h c
    exact h _ (Vector.mem_toList_iff.mpr (Vector.getElem_mem c.isLt))
  · intro h x hx
    obtain ⟨k, hk, rfl⟩ := Vector.getElem_of_mem (Vector.mem_toList_iff.mp hx)
    exact h (BitVec.ofNatLT k hk)

theorem registryAdmissible_iff (R : Registry) : registryAdmissible R = true ↔
    (∀ c, tableFits (registryAt R c) = true) ∧ voltagePinned (registryAt R 0xB) = true ∧
      frequencyPinned (registryAt R 0x2) = true ∧ temperaturePinned (registryAt R 0x4) = true ∧
      registryAt R 0xA = none := by
  rw [← all_toList_iff_registryAt, ← Option.isNone_iff_eq_none]
  simp only [registryAdmissible, Bool.and_eq_true, and_assoc]
  rfl

/-- Settles O6: each part of admissibility says its fact of one location. -/
theorem admissibilityIsTheFourPinnedFacts : Obligations.AdmissibilityIsTheFourPinnedFacts := by
  intro R
  simp only [registryAdmissible_iff, tableFits_iff, voltagePinned_iff, frequencyPinned_iff, temperaturePinned_iff]
  exact Iff.rfl

/-! Pinning leaves alone what is pinned already. -/

section
variable {e : Option FunctionEntry}

theorem clipTable_of_tableFits {x : FunctionEntry} (h : tableFits (some x) = true) :
    clipTable x.rangeTable = x.rangeTable := by
  cases ht : x.rangeTable with
  | none => rfl
  | some t => exact congrArg some (List.take_of_length_le ((tableFits_iff _).mp h x t rfl ht))

theorem clipEntry_of_tableFits (h : tableFits e = true) : clipEntry e = e := by
  cases e with
  | none => rfl
  | some x => simp [clipEntry, clipTable_of_tableFits h]

theorem pinVoltage_of_pinned (hfit : tableFits e = true) (h : voltagePinned e = true) : pinVoltage e = e := by
  obtain ⟨⟨mode, table, unit⟩, rest, rfl, rfl, rfl⟩ := (voltagePinned_iff e).mp h
  have hlength : rest.length + 1 ≤ 16 := (tableFits_iff _).mp hfit _ _ rfl rfl
  simp [pinVoltage, openTable, openUnit, List.take_of_length_le (Nat.le_of_succ_le_succ hlength)]

theorem pinFrequency_of_pinned (hfit : tableFits e = true) (h : frequencyPinned e = true) : pinFrequency e = e := by
  obtain ⟨⟨mode, table, unit⟩, rfl, rfl⟩ := (frequencyPinned_iff e).mp h
  simp [pinFrequency, openTable, openUnit, clipTable_of_tableFits hfit]

theorem pinTemperature_of_pinned (h : temperaturePinned e = true) : pinTemperature e = e := by
  obtain ⟨⟨mode, table, unit⟩, rfl, rfl, rfl⟩ := (temperaturePinned_iff e).mp h
  rfl

end

/-- Pinning works on each location by itself, so it keeps a registry whose sixteen locations it keeps. -/
theorem pinRegistry_eq_of_locations {R : Registry} (hclip : ∀ c, clipEntry (registryAt R c) = registryAt R c)
    (hvoltage : pinVoltage (registryAt R 0xB) = registryAt R 0xB)
    (hfrequency : pinFrequency (registryAt R 0x2) = registryAt R 0x2)
    (htemperature : pinTemperature (registryAt R 0x4) = registryAt R 0x4) (hunregistered : registryAt R 0xA = none) :
    pinRegistry R = R := by
  apply Vector.ext
  intro k hk
  match k, hk with
  | 0x2, _ => exact hfrequency
  | 0x4, _ => exact htemperature
  | 0xA, _ => exact hunregistered.symm
  | 0xB, _ => exact hvoltage
  | 0x0, hk | 0x1, hk | 0x3, hk | 0x5, hk | 0x6, hk | 0x7, hk | 0x8, hk | 0x9, hk | 0xC, hk | 0xD, hk | 0xE, hk
  | 0xF, hk => exact hclip (BitVec.ofNatLT _ hk)
  | _ + 16, hk => exact absurd hk (by omega)

/-- Settles O5: pinning writes the pinned facts, and an admissible registry has them in every location already. -/
theorem pinnedRegistriesAreTheAdmissibleOnes : Obligations.PinnedRegistriesAreTheAdmissibleOnes := by
  refine ⟨registryAdmissible_pinRegistry, fun R hR => ?_⟩
  obtain ⟨hfit, hvoltage, hfrequency, htemperature, hunregistered⟩ := (registryAdmissible_iff R).mp hR
  exact pinRegistry_eq_of_locations (fun c => clipEntry_of_tableFits (hfit c)) (pinVoltage_of_pinned (hfit _) hvoltage)
    (pinFrequency_of_pinned (hfit _) hfrequency) (pinTemperature_of_pinned htemperature) hunregistered

/-! The records of the rows. -/

theorem State.emit_eq_emitted {s : State} (hi : s.stage = .idle) (m : Measurement) : s.emit m = emitted s m := by
  unfold State.emit emitted
  rw [hi]

/-- Step 3 inside the table of a resolved entry (R131). -/
theorem stepThree_inside {e : FunctionEntry} {table : List RangeDescriptor} {r : Nibble} {rd : RangeDescriptor}
    (htable : e.rangeTable = some table) (hrd : table[r.toNat]? = some rd) : stepThree e r = .ok rd :=
  (stepThree_present r htable).trans (rlookup_inside hrd)

/-- A row whose code and range index resolve emits its record, unless AC and DC are both set (R138, R205). -/
theorem exec_eq_emitted_rowRecord {row : (Fields → Instr) × Nibble} (hrow : row ∈ allRows) {s : State} {p : Fields}
    {e : FunctionEntry} {table : List RangeDescriptor} {rd : RangeDescriptor} (hi : s.stage = .idle)
    (hreg : registryAt s.REG row.2 = some e) (htable : e.rangeTable = some table)
    (hrd : table[p.r.toNat]? = some rd) (hboth : (p.flags.AC && p.flags.DC) = false) :
    exec (row.1 p) s = .next (emitted s (rowRecord s.numerics p e rd)) := by
  obtain ⟨hcode, hfields⟩ := codeOf_and_fieldsIn_of_mem_allRows p row hrow
  rw [exec_idle hi, hcode, hfields,
    measure_eq_rowRecord s.numerics (stepTwo_registered hreg) (stepThree_inside htable hrd) hboth,
    State.finish_ok, State.emit_eq_emitted hi]

section
variable {fmt : FloatFormat} {p : Fields} {e : FunctionEntry} {rd : RangeDescriptor}

/-- The duty-cycle override replaces the mode, the unit and the descriptor (R150). -/
theorem rowRecord_of_override (hmode : e.modeName = "frequency") (hjudge : p.flags.JUDGE = true) :
    rowRecord fmt p e rd = recordOf fmt p "duty_cycle" "%" percent := if_pos ⟨hmode, hjudge⟩

theorem rowRecord_of_judge_clear (hjudge : p.flags.JUDGE = false) :
    rowRecord fmt p e rd = recordOf fmt p e.modeName e.baseUnit rd := if_neg (by simp [hjudge])

theorem rowRecord_of_modeName_ne (hmode : e.modeName ≠ "frequency") :
    rowRecord fmt p e rd = recordOf fmt p e.modeName e.baseUnit rd := if_neg fun h => hmode h.1

end

/-- Settles O27: the twelve rows are rows of the table, and the statement names their record as it is. -/
theorem parameterRowsEmitTheirRecord : Obligations.ParameterRowsEmitTheirRecord :=
  fun _ hrow _ _ _ _ _ hi hreg htable hrd hboth =>
    exec_eq_emitted_rowRecord (List.mem_append_left _ hrow) hi hreg htable hrd hboth

/-- Settles O21: the mode name is "voltage", so step 4 does nothing whatever JUDGE is, and the table's first descriptor is
pinned. -/
theorem voltEmitsTheVoltageRecord : Obligations.VoltEmitsTheVoltageRecord := by
  intro s p e table rd hi hadm hreg htable hrd hboth
  have hexec := exec_eq_emitted_rowRecord (row := (Instr.volt, 0xB)) (by simp [allRows]) hi hreg htable hrd hboth
  obtain ⟨rest, unit, hpinned⟩ := admissible_voltage hadm
  obtain rfl := Option.some.inj (hreg.symm.trans hpinned)
  obtain rfl : voltDescriptor :: rest = table := Option.some.inj htable
  constructor
  · intro hr
    rw [hr] at hrd
    exact (Option.some.inj hrd).symm
  · rwa [rowRecord_of_modeName_ne (by simp)] at hexec

theorem admissible_frequency_modeName {R : Registry} {e : FunctionEntry} (h : registryAdmissible R = true)
    (hreg : registryAt R 0x2 = some e) : e.modeName = "frequency" := by
  obtain ⟨table, unit, hpinned⟩ := admissible_frequency h
  obtain rfl := Option.some.inj (hreg.symm.trans hpinned)
  rfl

/-- Settles O22: JUDGE is clear, so step 4 does nothing, and the mode name is pinned. -/
theorem freqEmitsTheFrequencyRecord : Obligations.FreqEmitsTheFrequencyRecord := by
  intro s p e table rd hi hadm hjudge hreg htable hrd hboth
  have hexec := exec_eq_emitted_rowRecord (row := (Instr.freq, 0x2)) (by simp [allRows]) hi hreg htable hrd hboth
  rwa [rowRecord_of_judge_clear hjudge, admissible_frequency_modeName hadm hreg] at hexec

/-- Settles O23: the pinned mode name and JUDGE make step 4 override. -/
theorem dutyEmitsTheForcedRecord : Obligations.DutyEmitsTheForcedRecord := by
  intro s p e table hi hadm hjudge hreg htable hinside hboth
  have hexec := exec_eq_emitted_rowRecord (row := (Instr.duty, 0x2)) (by simp [allRows]) hi hreg htable
    (List.getElem?_eq_getElem hinside) hboth
  rwa [rowRecord_of_override (admissible_frequency_modeName hadm hreg) hjudge] at hexec

/-! Noninterference of the range index under the override. -/

/-- After step 3, an overridden packet's outcome no longer mentions the resolved descriptor (R135, R151). -/
theorem measure_of_override {REG : Registry} {fmt : FloatFormat} {c : Nibble} {p : Fields} {e : FunctionEntry}
    {rd : RangeDescriptor} (h2 : stepTwo REG c = .ok e) (h3 : stepThree e p.r = .ok rd)
    (hmode : e.modeName = "frequency") (hjudge : p.flags.JUDGE = true) :
    measure REG fmt c p = if p.flags.AC && p.flags.DC then .error .ConflictingCurrentType
      else .ok (recordOf fmt p "duty_cycle" "%" percent) := by
  cases hboth : p.flags.AC && p.flags.DC with
  | true => exact measure_stepFive_error h2 h3 (stepFive_both hboth)
  | false => exact (measure_eq_rowRecord fmt h2 h3 hboth).trans (congrArg _ (rowRecord_of_override hmode hjudge))

/-- A row's answer depends on the fields through steps 2 to 11 alone, in an idle state and in a busy one. -/
theorem State.decodeRow_congr {s : State} {c : Nibble} {p q : Fields}
    (h : measure s.REG s.numerics c p = measure s.REG s.numerics c q) : s.decodeRow c p = s.decodeRow c q := by
  unfold State.decodeRow
  rw [h]

/-- Settles O24: both packets are overridden after step 3, and the record and the test of step 5 read no range index. -/
theorem dutyDoesNotDependOnTheRangeIndex : Obligations.DutyDoesNotDependOnTheRangeIndex := by
  intro s p r e table hadm hjudge hreg htable hp hr
  have h2 := stepTwo_registered hreg
  have hmode := admissible_frequency_modeName hadm hreg
  have h3 : ∀ {k : Nibble} (hk : k.toNat < table.length), stepThree e k = .ok table[k.toNat] := fun hk =>
    stepThree_inside htable (List.getElem?_eq_getElem hk)
  rw [exec_eq_decodeRow, exec_eq_decodeRow]
  exact State.decodeRow_congr ((measure_of_override (p := { p with r := r }) h2 (h3 hr) hmode hjudge).trans
    (measure_of_override h2 (h3 hp) hmode hjudge).symm)

/-! The two pinned rows that always abort. -/

/-- Settles O25: the pinned entry of code 0x4 has no range table. -/
theorem tempAbortsWithUnsupportedMode : Obligations.TempAbortsWithUnsupportedMode := by
  intro s p hi hadm
  obtain ⟨unit, hpinned⟩ := admissible_temperature hadm
  exact missingRangeTableAborts (Instr.temp, 0x4) (by simp [allRows]) s p _ hi hpinned rfl

/-- Settles O26: code 0xA is pinned as unregistered. -/
theorem unregAbortsWithUnknownFunction : Obligations.UnregAbortsWithUnknownFunction :=
  fun s p hi hadm =>
    unregisteredCodeAborts (Instr.unreg, 0xA) (by simp [allRows]) s p hi (admissible_unregistered hadm)

/-! Scenario 1 of the test vectors. -/

/-- The nine bytes of scenario 1 (95_test_vectors.md). -/
def scenarioOne : Packet := ⟨0x00, 6, 0, 0, 0, 0x0b, 0x00, 0x00, 0x08⟩

/-- DECODE of scenario 1 emits the voltage record under the pinned descriptor; its unit is the registry's (R125, R133). -/
theorem decodeInput_scenarioOne {REG : Registry} (fmt : FloatFormat) (h : registryAdmissible REG = true) :
    ∃ unit, decodeInput REG fmt (packetBytes scenarioOne) =
      .ok (recordOf fmt (layoutFields scenarioOne) "voltage" unit voltDescriptor) := by
  obtain ⟨rest, unit, hpinned⟩ := admissible_voltage h
  have hcode : functionCode scenarioOne = 0xB := by decide
  have hmeasure := measure_eq_rowRecord (p := layoutFields scenarioOne) fmt (stepTwo_registered hpinned)
    (stepThree_inside rfl rfl) (by decide)
  refine ⟨unit, ?_⟩
  rw [decodeInput_eq_outcomeTree, outcomeTree_eq_measure (by decide), hcode, hmeasure,
    rowRecord_of_modeName_ne (by simp)]

/-- The two roundings of 6.000 V at the multiplier 1 are exact (R183). -/
theorem binary64_six_volts : flMul .binary64 (flOf .binary64 ⟨6000, -3⟩) (flOf .binary64 ⟨1, 0⟩) =
    0x4018000000000000#64 := by decide

/-- Settles O60: the step emits that record, and its value is the product of 6.000 and 1. -/
theorem scenarioOneMeasuresSixVolts : Obligations.ScenarioOneMeasuresSixVolts := by
  intro s rest hi hadm hfmt
  obtain ⟨unit, hdecode⟩ := decodeInput_scenarioOne s.numerics hadm
  have hstep := step_of_stream_cons (s := { s with stream := packetBytes scenarioOne :: rest }) hi rfl
  refine ⟨_, _, hstep.trans (by rw [hdecode, State.finish_ok]), readMeasurement_of_valid rfl rfl, rfl, rfl, rfl, ?_,
    rfl, rfl, rfl, rfl, rfl⟩
  rw [hfmt]
  exact congrArg some binary64_six_volts

end Sys2Proof.Machine
end

section
/-! PROOF. The selector mux (42_selector_mux.md): what OL does to an emitted record and to the outcome of steps 2 to 11, and
that no packet with both current types emits a record. -/

namespace Sys2Proof.Machine

open Sys2Proof.Claims

/-! Packets whose DECODE emits a record. -/

/-- Settles O45: the operation follows OL, and a record that fits has the numbers that its operation asks for. -/
theorem overloadMasksBothNumbers : Obligations.OverloadMasksBothNumbers := by
  intro REG fmt P m h
  obtain ⟨-, -, hoperation, -⟩ := selectorsFollowTheirFlags REG fmt P m h
  have hnumbers := numbersFit_cases (decodeInput_recordFits h)
  constructor
  · intro hset
    have hoverload : m.operation = .overload := hoperation.trans (if_pos hset)
    obtain ⟨-, hdisplay, hvalue⟩ | ⟨hnormal, -⟩ := hnumbers
    · exact ⟨hvalue, hdisplay, hoverload⟩
    · exact nomatch hoverload.symm.trans hnormal
  · intro hclear
    have hnormal : m.operation = .normal := hoperation.trans (if_neg (Bool.eq_false_iff.mp hclear))
    obtain ⟨hoverload, -⟩ | ⟨-, v, x, hdisplay, hvalue, -⟩ := hnumbers
    · exact nomatch hoverload.symm.trans hnormal
    · exact ⟨Option.isSome_of_eq_some hvalue, Option.isSome_of_eq_some hdisplay, hnormal⟩

/-- An emitted record has passed step 5 (R153). -/
theorem decodeInput_ne_ok_of_both (REG : Registry) (fmt : FloatFormat) {P : Packet}
    (hAC : P.option2Byte.getLsbD 2 = true) (hDC : P.option2Byte.getLsbD 3 = true) (m : Measurement) :
    decodeInput REG fmt (packetBytes P) ≠ .ok m := by
  intro h
  obtain ⟨hboth, -⟩ := selectorsFollowTheirFlags REG fmt P m h
  rw [hAC, hDC] at hboth
  cases hboth

/-- Settles O54: DECODE of such a packet emits no record, so it ends in an abort. -/
theorem bothCurrentTypesAlwaysFail : Obligations.BothCurrentTypesAlwaysFail := by
  intro s t P rest hAC hDC h
  rw [step_next_of_stream_cons rfl h]
  cases hd : decodeInput s.REG s.numerics (packetBytes P) with
  | ok m => exact absurd hd (decodeInput_ne_ok_of_both _ _ hAC hDC m)
  | error k => exact ⟨rfl, errorCode_ne_zero k, rfl⟩

/-! Noninterference of OL. -/

/-- The fields with OL as given. -/
def withOL (p : Fields) (b : Bool) : Fields := { p with flags := { p.flags with OL := b } }

/-- The record of an overload in place of `m` (R186, R187). -/
def masked (m : Measurement) : Measurement := { m with value := none, displayValue := none, operation := .overload }

/-- No test of steps 2 to 5 reads OL: with it set and with it clear, steps 2 to 11 abort with one error, or emit the record
of one entry and one descriptor (R160). -/
theorem measure_withOL_cases (REG : Registry) (fmt : FloatFormat) (c : Nibble) (p : Fields) :
    (∃ k, ∀ b, measure REG fmt c (withOL p b) = .error k) ∨
      ∃ e rd, ∀ b, measure REG fmt c (withOL p b) = .ok (rowRecord fmt (withOL p b) e rd) := by
  cases h2 : stepTwo REG c with
  | error k => exact .inl ⟨k, fun _ => measure_stepTwo_error h2⟩
  | ok e =>
    cases h3 : stepThree e p.r with
    | error k => exact .inl ⟨k, fun _ => measure_stepThree_error h2 h3⟩
    | ok rd =>
      cases h5 : p.flags.AC && p.flags.DC with
      | true => exact .inl ⟨_, fun _ => measure_stepFive_error h2 h3 (stepFive_both h5)⟩
      | false => exact .inr ⟨e, rd, fun _ => measure_eq_rowRecord fmt h2 h3 h5⟩

/-- With OL set a row's record is the masked record of OL clear, overridden by step 4 or not (R154, R186). -/
theorem rowRecord_withOL_true (fmt : FloatFormat) (p : Fields) (e : FunctionEntry) (rd : RangeDescriptor) :
    rowRecord fmt (withOL p true) e rd = masked (rowRecord fmt (withOL p false) e rd) := by
  unfold rowRecord
  rw [apply_ite masked]
  rfl

/-- Settles O46: past the tests, which do not read OL, the outcome is the row's record. -/
theorem overloadChangesNothingElse : Obligations.OverloadChangesNothingElse := by
  intro REG fmt c p
  change measure REG fmt c (withOL p true) = (measure REG fmt c (withOL p false)).map masked
  obtain ⟨k, h⟩ | ⟨e, rd, h⟩ := measure_withOL_cases REG fmt c p
  · rw [h, h]
    rfl
  · rw [h, h, rowRecord_withOL_true]
    rfl

end Sys2Proof.Machine
end

section
/-! PROOF. Rounding of positive rationals to integers and to the significands of binary64 (43_numeric_converter.md R183). -/

namespace Sys2Proof.Machine

/-! Powers with an integer exponent, written with natural ones. -/

/-- The model scales by the positive and the negative part of an exponent, one on each side of the fraction. -/
theorem pow_toNat_div_pow_toNat_neg {b : ℚ} (hb : b ≠ 0) (e : ℤ) : b ^ e.toNat / b ^ (-e).toNat = b ^ e := by
  rw [← zpow_natCast, ← zpow_natCast, ← zpow_sub₀ hb]
  congr 1
  omega

/-! Rounding to the nearest integer. -/

/-- `q` is `r` rounded to the nearest integer, ties to even. -/
structure NearestEven (r : ℚ) (q : ℕ) : Prop where
  within_half : |r - q| ≤ 1 / 2
  even_of_tie : |r - q| = 1 / 2 → q % 2 = 0

section
variable {r : ℚ} {q q' : ℕ}

/-- Every other integer is at least half a unit away. -/
theorem NearestEven.half_le (h : NearestEven r q) {j : ℤ} (hj : j ≠ q) : 1 / 2 ≤ |r - j| := by
  have hone : (1 : ℚ) ≤ |(j : ℚ) - q| := by exact_mod_cast Int.one_le_abs (sub_ne_zero.mpr hj)
  have htri : |(j : ℚ) - q| ≤ |(j : ℚ) - r| + |r - q| := abs_sub_le _ _ _
  have hhalf := h.within_half
  rw [abs_sub_comm (j : ℚ) r] at htri
  linarith

theorem NearestEven.le (h : NearestEven r q) (j : ℤ) : |r - q| ≤ |r - j| := by
  by_cases hj : j = q
  · simp [hj]
  · exact h.within_half.trans (h.half_le hj)

theorem NearestEven.eq_or_even (h : NearestEven r q) {j : ℤ} (htie : |r - q| = |r - j|) : j = q ∨ q % 2 = 0 := by
  by_cases hj : j = q
  · exact .inl hj
  · exact .inr (h.even_of_tie (le_antisymm h.within_half (htie ▸ h.half_le hj)))

/-- Two nearest integers are neighbours at the same distance, and of two neighbours one is odd. -/
theorem NearestEven.unique (h : NearestEven r q) (h' : NearestEven r q') : q = q' := by
  have hle := h.le q'
  have hle' := h'.le q
  push_cast at hle hle'
  have heq : |r - q| = |r - q'| := le_antisymm hle hle'
  obtain hq | heven := h.eq_or_even (j := q') heq
  · exact_mod_cast hq.symm
  obtain hq | heven' := h'.eq_or_even (j := q) heq.symm
  · exact_mod_cast hq
  have hdist : |(q : ℚ) - q'| ≤ 1 := by
    have htri : |(q : ℚ) - q'| ≤ |(q : ℚ) - r| + |r - q'| := abs_sub_le _ _ _
    rw [abs_sub_comm (q : ℚ) r] at htri
    linarith [h.within_half, h'.within_half]
  have hint : |(q : ℤ) - q'| ≤ 1 := by exact_mod_cast hdist
  rw [abs_le] at hint
  omega

/-- Rounding does not cross a natural number. -/
theorem NearestEven.le_of_le (h : NearestEven r q) {j : ℕ} (hj : r ≤ j) : q ≤ j := by
  by_contra hlt
  have hlt' : (j : ℚ) < q := by exact_mod_cast not_le.mp hlt
  have hle := h.le j
  rw [Int.cast_natCast, abs_of_nonpos (by linarith), abs_of_nonpos (by linarith)] at hle
  linarith

theorem NearestEven.ge_of_ge (h : NearestEven r q) {j : ℕ} (hj : (j : ℚ) ≤ r) : j ≤ q := by
  by_contra hlt
  have hlt' : (q : ℚ) < j := by exact_mod_cast not_le.mp hlt
  have hle := h.le j
  rw [Int.cast_natCast, abs_of_nonneg (by linarith), abs_of_nonneg (by linarith)] at hle
  linarith

/-- A natural number is its own rounding. -/
theorem NearestEven.natCast (q : ℕ) : NearestEven q q := ⟨by simp, by simp⟩

end

/-- The quotient and twice the remainder decide as `roundHalfEven` does. -/
theorem nearestEven_roundHalfEven (num : ℕ) {den : ℕ} (hden : 0 < den) :
    NearestEven (num / den) (roundHalfEven num den) := by
  have hd : (0 : ℚ) < den := by exact_mod_cast hden
  have hlt := Nat.mod_lt num hden
  have hdiv : (num : ℚ) / den = (num / den : ℕ) + (num % den : ℕ) / den := by
    have hsum : (den : ℚ) * (num / den : ℕ) + (num % den : ℕ) = num := by exact_mod_cast Nat.div_add_mod num den
    field_simp
    linarith
  unfold roundHalfEven
  simp only []
  rw [hdiv]
  generalize num / den = q at *
  generalize num % den = m at *
  have hm : (0 : ℚ) ≤ m / den := by positivity
  have hm1 : (m : ℚ) / den ≤ 1 := (div_le_one hd).mpr (by exact_mod_cast hlt.le)
  have htie : (m : ℚ) / den = 1 / 2 ↔ 2 * m = den := by
    rw [div_eq_div_iff hd.ne' two_ne_zero]
    norm_cast
    omega
  split
  case isTrue hup =>
    have habs : |(q : ℚ) + m / den - (q + 1 : ℕ)| = 1 - m / den := by
      rw [Nat.cast_succ, abs_of_nonpos (by linarith)]
      ring
    have hhalf : 1 / 2 ≤ (m : ℚ) / den := by
      rw [div_le_div_iff₀ two_pos hd]
      exact_mod_cast (by omega : 1 * den ≤ m * 2)
    refine ⟨by rw [habs]; linarith, fun h => ?_⟩
    have := htie.mp (by rw [habs] at h; linarith)
    omega
  case isFalse hdown =>
    have habs : |(q : ℚ) + m / den - q| = m / den := by rw [add_sub_cancel_left, abs_of_nonneg hm]
    have hhalf : (m : ℚ) / den ≤ 1 / 2 := by
      rw [div_le_div_iff₀ hd two_pos]
      exact_mod_cast (by omega : m * 2 ≤ 1 * den)
    refine ⟨by rw [habs]; exact hhalf, fun h => ?_⟩
    have := htie.mp (habs.symm.trans h)
    omega

/-! The exponent of the leading bit. -/

/-- `leadingExponent` finds the power of two at or below a positive fraction. -/
theorem leadingExponent_spec {n d : ℕ} (hn : 0 < n) (hd : 0 < d) :
    (2 : ℚ) ^ leadingExponent n d ≤ n / d ∧ (n : ℚ) / d < 2 ^ (leadingExponent n d + 1) := by
  have hd' : (0 : ℚ) < d := by exact_mod_cast hd
  have hlog : ∀ m : ℕ, 0 < m → (2 : ℚ) ^ (m.log2 : ℤ) ≤ m ∧ (m : ℚ) < 2 ^ ((m.log2 : ℤ) + 1) := fun m hm => by
    constructor
    · exact_mod_cast Nat.log2_self_le hm.ne'
    · exact_mod_cast Nat.lt_log2_self
  obtain ⟨hn1, hn2⟩ := hlog n hn
  obtain ⟨hd1, hd2⟩ := hlog d hd
  set k : ℤ := (n.log2 : ℤ) - d.log2 with hk
  have hupper : (n : ℚ) / d < 2 ^ (k + 1) := by
    rw [div_lt_iff₀ hd']
    calc (n : ℚ) < 2 ^ ((n.log2 : ℤ) + 1) := hn2
      _ = 2 ^ (k + 1) * 2 ^ (d.log2 : ℤ) := by rw [← zpow_add₀ two_ne_zero]; congr 1; omega
      _ ≤ 2 ^ (k + 1) * d := by gcongr
  have hlower : (2 : ℚ) ^ (k - 1) ≤ n / d := by
    rw [le_div_iff₀ hd']
    calc (2 : ℚ) ^ (k - 1) * d ≤ 2 ^ (k - 1) * 2 ^ ((d.log2 : ℤ) + 1) := by gcongr
      _ = 2 ^ (n.log2 : ℤ) := by rw [← zpow_add₀ two_ne_zero]; congr 1; omega
      _ ≤ n := hn1
  have htest : d * 2 ^ k.toNat ≤ n * 2 ^ (-k).toNat ↔ (2 : ℚ) ^ k ≤ n / d := by
    rw [← pow_toNat_div_pow_toNat_neg two_ne_zero, div_le_div_iff₀ (by positivity) hd', mul_comm d]
    norm_cast
  unfold leadingExponent
  simp only [← hk, htest]
  split
  case isTrue h => exact ⟨h, hupper⟩
  case isFalse h => exact ⟨hlower, by rw [sub_add_cancel]; exact not_le.mp h⟩

/-! Rounding to 53 bits at an exponent of at least -1074. -/

/-- The magnitude `x` rounds to `q` units of `2 ^ e`: the unit is the one of the format's 53 bits for `x`, but never below
that of the subnormal numbers (R183). -/
structure RoundsAt (x : ℚ) (e : ℤ) (q : ℕ) : Prop where
  exponent : -1074 ≤ e
  upper : x < 2 ^ 53 * 2 ^ e
  lower : e = -1074 ∨ 2 ^ 52 * 2 ^ e ≤ x
  nearest : NearestEven (x / 2 ^ e) q

/-- What `roundMagnitude` computes: the unit and the significand of the fraction, put together as an image, with every
overflow at infinity. -/
theorem roundMagnitude_spec (n : ℕ) {d : ℕ} (hd : 0 < d) :
    ∃ e q, RoundsAt (n / d) e q ∧ roundMagnitude n d = min ((e + 1074).toNat * 2 ^ 52 + q) infinityBits := by
  unfold roundMagnitude
  split
  case isTrue hn =>
    refine ⟨-1074, 0, ⟨le_rfl, ?_, .inl rfl, ?_⟩, rfl⟩
    · rw [hn, Nat.cast_zero, zero_div]
      positivity
    · rw [hn]
      simpa using NearestEven.natCast 0
  case isFalse hn =>
    obtain ⟨hlower, hupper⟩ := leadingExponent_spec (Nat.pos_of_ne_zero hn) hd
    simp only []
    generalize leadingExponent n d = k at *
    refine ⟨max (k - 52) (-1074), _, ⟨le_max_right _ _, ?_, ?_, ?_⟩, rfl⟩
    · calc (n : ℚ) / d < 2 ^ (k + 1) := hupper
        _ ≤ 2 ^ (53 + max (k - 52) (-1074)) := zpow_le_zpow_right₀ one_le_two (by omega)
        _ = 2 ^ 53 * 2 ^ max (k - 52) (-1074) := by rw [zpow_add₀ two_ne_zero]; rfl
    · obtain h | h := le_total (k - 52) (-1074)
      · exact .inl (max_eq_right h)
      · right
        calc (2 : ℚ) ^ 52 * 2 ^ max (k - 52) (-1074) = 2 ^ (52 + max (k - 52) (-1074)) := by
              rw [zpow_add₀ two_ne_zero]; rfl
          _ = 2 ^ k := by rw [max_eq_left h, add_sub_cancel]
          _ ≤ n / d := hlower
    · generalize max (k - 52) (-1074) = e
      have hscale : (n : ℚ) / d / 2 ^ e = (n * 2 ^ (-e).toNat : ℕ) / (d * 2 ^ e.toNat : ℕ) := by
        rw [← pow_toNat_div_pow_toNat_neg two_ne_zero e]
        push_cast
        field_simp
      rw [hscale]
      exact nearestEven_roundHalfEven _ (by positivity)

section
variable {x : ℚ} {e e' : ℤ} {q q' : ℕ}

theorem RoundsAt.exponent_le (h : RoundsAt x e q) (h' : RoundsAt x e' q') : e' ≤ e := by
  by_contra hlt
  have hnormal : (2 : ℚ) ^ 52 * 2 ^ e' ≤ x := h'.lower.resolve_left (by linarith [h.exponent])
  have hstep : (2 : ℚ) ^ 53 * 2 ^ e ≤ 2 ^ 52 * 2 ^ e' :=
    calc (2 : ℚ) ^ 53 * 2 ^ e = 2 ^ 52 * 2 ^ (e + 1) := by rw [zpow_add_one₀ two_ne_zero]; ring
      _ ≤ 2 ^ 52 * 2 ^ e' := by gcongr <;> [norm_num; omega]
  linarith [h.upper]

/-- A number rounds in one way. -/
theorem RoundsAt.unique (h : RoundsAt x e q) (h' : RoundsAt x e' q') : e = e' ∧ q = q' := by
  obtain rfl : e = e' := le_antisymm (h'.exponent_le h) (h.exponent_le h')
  exact ⟨rfl, h.nearest.unique h'.nearest⟩

end

/-- The image that a known rounding gives. -/
theorem RoundsAt.roundMagnitude_eq {n d : ℕ} (hd : 0 < d) {e : ℤ} {q : ℕ} (h : RoundsAt (n / d) e q) :
    roundMagnitude n d = min ((e + 1074).toNat * 2 ^ 52 + q) infinityBits := by
  obtain ⟨e', q', h', heq⟩ := roundMagnitude_spec n hd
  obtain ⟨rfl, rfl⟩ := h.unique h'
  exact heq

/-- `roundMagnitude` is a function of the fraction, not of its numerator and denominator. -/
theorem roundMagnitude_congr {n d n' d' : ℕ} (hd : 0 < d) (hd' : 0 < d') (h : (n : ℚ) / d = n' / d') :
    roundMagnitude n d = roundMagnitude n' d' := by
  obtain ⟨e, q, hround, heq⟩ := roundMagnitude_spec n hd
  have hround' : RoundsAt (n' / d') e q := h ▸ hround
  rw [heq, hround'.roundMagnitude_eq hd']

end Sys2Proof.Machine
end

section
/-! PROOF. The images of binary64: their fields, the numbers they are, and that the image of a rounding is nearest to the
rounded number among all the numbers of 53 bits (43_numeric_converter.md R183). -/

namespace Sys2Proof.Machine

open Sys2Proof.Claims

/-! The sign. -/

/-- The sign of a number as a factor. -/
def signFactor (negative : Bool) : ℚ := if negative then -1 else 1

theorem signFactor_mul (a b : Bool) : signFactor a * signFactor b = signFactor (a != b) := by
  cases a <;> cases b <;> norm_num [signFactor]

theorem signFactor_mul_self (a : Bool) : signFactor a * signFactor a = 1 := by cases a <;> norm_num [signFactor]

@[simp] theorem abs_signFactor (a : Bool) : |signFactor a| = 1 := by cases a <;> norm_num [signFactor]

/-- A sign moves to the other side of a distance. -/
theorem abs_signFactor_mul_sub (a : Bool) (x y : ℚ) : |signFactor a * x - y| = |x - signFactor a * y| := by
  have h : signFactor a * x - y = signFactor a * (x - signFactor a * y) := by
    rw [mul_sub, ← mul_assoc, signFactor_mul_self, one_mul]
  rw [h, abs_mul, abs_signFactor, one_mul]

/-! The fields of an image. -/

section
variable (negative : Bool) {M : ℕ} (hM : M < 2 ^ 63)
include hM

theorem toNat_signedImage : (signedImage negative M).toNat = (if negative then 2 ^ 63 else 0) + M := by
  rw [signedImage, BitVec.toNat_ofNat]
  exact Nat.mod_eq_of_lt (by split <;> omega)

theorem signBit_signedImage : signBit (signedImage negative M) = negative := by
  rw [signBit, BitVec.getLsbD, toNat_signedImage negative hM, Nat.testBit_eq_decide_div_mod_eq]
  cases negative <;> simp <;> omega

theorem exponentField_signedImage : exponentField (signedImage negative M) = M / 2 ^ 52 := by
  rw [exponentField, BitVec.extractLsb'_toNat, toNat_signedImage negative hM, Nat.shiftRight_eq_div_pow]
  split <;> omega

theorem fractionField_signedImage : fractionField (signedImage negative M) = M % 2 ^ 52 := by
  rw [fractionField, BitVec.extractLsb'_toNat, toNat_signedImage negative hM, Nat.shiftRight_eq_div_pow]
  split <;> omega

end

section
variable (a : FlNumber)

theorem exponentField_lt : exponentField a < 2 ^ 11 := BitVec.isLt _

theorem fractionField_lt : fractionField a < 2 ^ 52 := BitVec.isLt _

/-- An image is put together from its fields again. -/
theorem signedImage_fields : signedImage (signBit a) (exponentField a * 2 ^ 52 + fractionField a) = a := by
  have hE := exponentField_lt a
  have hf := fractionField_lt a
  apply BitVec.eq_of_toNat_eq
  rw [toNat_signedImage _ (by omega), signBit, BitVec.getLsbD, Nat.testBit_eq_decide_div_mod_eq, exponentField,
    fractionField, BitVec.extractLsb'_toNat, BitVec.extractLsb'_toNat, Nat.shiftRight_eq_div_pow,
    Nat.shiftRight_eq_div_pow]
  have := a.isLt
  split <;> simp_all <;> omega

theorem numberOfImage_eq :
    numberOfImage a = signFactor (signBit a) * ((significand a : ℚ) * 2 ^ unitExponent a) := by
  rw [numberOfImage, signFactor, mul_assoc]

theorem abs_numberOfImage : |numberOfImage a| = (significand a : ℚ) * 2 ^ unitExponent a := by
  rw [numberOfImage_eq, abs_mul, abs_signFactor, one_mul, abs_of_nonneg (by positivity)]

theorem significand_lt : significand a < 2 ^ 53 := by
  have := fractionField_lt a
  unfold significand
  split <;> omega

theorem le_unitExponent : -1074 ≤ unitExponent a := by
  unfold unitExponent
  omega

end

/-! The numbers of 53 bits. -/

/-- A number with a significand of at most 53 bits at an exponent of at least -1074; unlike an image it may lie beyond the
largest finite number. -/
def Representable (y : ℚ) : Prop := ∃ j u : ℤ, |j| < 2 ^ 53 ∧ -1074 ≤ u ∧ y = j * 2 ^ u

theorem Representable.natCast_mul {j : ℕ} (hj : j < 2 ^ 53) {u : ℤ} (hu : -1074 ≤ u) :
    Representable ((j : ℚ) * 2 ^ u) :=
  ⟨j, u, by rw [Nat.abs_cast]; exact_mod_cast hj, hu, by rw [Int.cast_natCast]⟩

theorem Representable.intCast {j : ℤ} (hj : |j| < 2 ^ 53) : Representable j := ⟨j, 0, hj, by norm_num, by simp⟩

theorem Representable.two_zpow {u : ℤ} (hu : -1074 ≤ u) : Representable (2 ^ u) := ⟨1, u, by norm_num, hu, by simp⟩

theorem Representable.neg {y : ℚ} (h : Representable y) : Representable (-y) := by
  obtain ⟨j, u, hj, hu, rfl⟩ := h
  exact ⟨-j, u, by rwa [abs_neg], hu, by push_cast; ring⟩

theorem Representable.signFactor_mul (a : Bool) {y : ℚ} (h : Representable y) : Representable (signFactor a * y) := by
  cases a with
  | false => simpa [signFactor] using h
  | true => simpa [signFactor] using h.neg

theorem representable_numberOfImage (a : FlNumber) : Representable (numberOfImage a) := by
  rw [numberOfImage_eq]
  exact (Representable.natCast_mul (significand_lt a) (le_unitExponent a)).signFactor_mul _

/-! The number of a rounding. -/

section
variable {x : ℚ} {e : ℤ} {q : ℕ}

theorem RoundsAt.q_le (h : RoundsAt x e q) : q ≤ 2 ^ 53 := by
  refine h.nearest.le_of_le ?_
  rw [div_le_iff₀ (by positivity)]
  exact_mod_cast h.upper.le

/-- Only a rounding at the least exponent can have fewer than 53 bits. -/
theorem RoundsAt.le_q (h : RoundsAt x e q) : e = -1074 ∨ 2 ^ 52 ≤ q := by
  refine h.lower.imp_right fun hlow => h.nearest.ge_of_ge ?_
  rw [le_div_iff₀ (by positivity)]
  exact_mod_cast hlow

/-- A distance in units of `2 ^ e`. -/
theorem abs_sub_mul_zpow (x y : ℚ) (e : ℤ) : |x - y * 2 ^ e| = |x / 2 ^ e - y| * 2 ^ e := by
  have he : (0 : ℚ) < 2 ^ e := by positivity
  rw [← abs_of_pos he, ← abs_mul, abs_of_pos he, sub_mul, div_mul_cancel₀ _ he.ne']

/-- No multiple of the unit is nearer than the rounding. -/
theorem RoundsAt.le_multiple (h : RoundsAt x e q) (j : ℤ) : |x - q * 2 ^ e| ≤ |x - j * 2 ^ e| := by
  rw [abs_sub_mul_zpow, abs_sub_mul_zpow]
  exact mul_le_mul_of_nonneg_right (h.nearest.le j) (by positivity)

/-- A number of 53 bits with a smaller unit lies below the range of the rounding's unit, and so further away. -/
theorem RoundsAt.lt_of_smaller_unit (h : RoundsAt x e q) {j u : ℤ} (hj : |j| < 2 ^ 53) (hu : -1074 ≤ u) (hue : u < e) :
    |x - q * 2 ^ e| < |x - j * 2 ^ u| := by
  have hlow : (2 : ℚ) ^ 52 * 2 ^ e ≤ x := h.lower.resolve_left (by omega)
  have hj' : (j : ℚ) < 2 ^ 53 := by exact_mod_cast (le_abs_self j).trans_lt hj
  have hbelow : (j : ℚ) * 2 ^ u < 2 ^ 52 * 2 ^ e :=
    calc (j : ℚ) * 2 ^ u < 2 ^ 53 * 2 ^ u := by gcongr
      _ = 2 ^ 52 * 2 ^ (u + 1) := by rw [zpow_add_one₀ two_ne_zero]; ring
      _ ≤ 2 ^ 52 * 2 ^ e := by gcongr <;> [norm_num; omega]
  have hle := h.le_multiple (2 ^ 52)
  rw [Int.cast_pow, Int.cast_ofNat] at hle
  calc |x - q * 2 ^ e| ≤ |x - 2 ^ 52 * 2 ^ e| := hle
    _ = x - 2 ^ 52 * 2 ^ e := abs_of_nonneg (sub_nonneg.mpr hlow)
    _ < x - j * 2 ^ u := by linarith
    _ ≤ |x - j * 2 ^ u| := le_abs_self _

/-- No number of 53 bits is nearer than the rounding, and where another is as near the rounding is even. -/
theorem RoundsAt.nearest_representable (h : RoundsAt x e q) {y : ℚ} (hy : Representable y) :
    |x - q * 2 ^ e| ≤ |x - y| ∧ (|x - q * 2 ^ e| = |x - y| → y = q * 2 ^ e ∨ q % 2 = 0) := by
  obtain ⟨j, u, hj, hu, rfl⟩ := hy
  obtain hue | hue := lt_or_ge u e
  · have hlt := h.lt_of_smaller_unit hj hu hue
    exact ⟨hlt.le, fun htie => absurd htie hlt.ne⟩
  · obtain ⟨k, rfl⟩ := Int.le.dest hue
    have hmul : (j : ℚ) * 2 ^ (e + k) = (j * 2 ^ k : ℤ) * 2 ^ e := by
      rw [zpow_add₀ two_ne_zero, zpow_natCast]
      push_cast
      ring
    rw [hmul]
    refine ⟨h.le_multiple _, fun htie => ?_⟩
    rw [abs_sub_mul_zpow, abs_sub_mul_zpow] at htie
    refine (h.nearest.eq_or_even (mul_right_cancel₀ (by positivity) htie)).imp_left fun hq => ?_
    rw [hq, Int.cast_natCast]

end

/-- The overflow bound lies half a unit below the end of the last exponent's range. -/
theorem overflowBound_eq : overflowBound = (2 ^ 53 - 1 / 2) * 2 ^ (971 : ℤ) := by
  have hpow : (2 : ℚ) ^ 1024 = 2 ^ 53 * 2 ^ 971 := by rw [← pow_add]
  have hhalf : (2 : ℚ) ^ 970 = 1 / 2 * 2 ^ 971 := by
    rw [(pow_succ 2 970 : (2 : ℚ) ^ 971 = 2 ^ 970 * 2)]
    generalize (2 : ℚ) ^ 970 = y
    ring
  rw [overflowBound, hpow, hhalf, ← sub_mul]
  rfl

section
variable {x : ℚ} {e : ℤ} {q : ℕ}

/-- Below the overflow bound the image of a rounding is below infinity: at the last exponent the significand is not rounded
up to the next power of two. -/
theorem RoundsAt.image_lt_infinityBits (h : RoundsAt x e q) (hx : x < overflowBound) :
    (e + 1074).toNat * 2 ^ 52 + q < infinityBits := by
  have hq := h.q_le
  have hmin := h.exponent
  rw [overflowBound_eq] at hx
  have he : e ≤ 971 := by
    by_contra hlt
    have hlow : (2 : ℚ) ^ 52 * 2 ^ e ≤ x := h.lower.resolve_left (by omega)
    have hstep : (2 : ℚ) ^ 52 * 2 ^ (971 + 1 : ℤ) ≤ 2 ^ 52 * 2 ^ e := by gcongr <;> [norm_num; omega]
    rw [zpow_add_one₀ two_ne_zero] at hstep
    have hpos : (0 : ℚ) < 2 ^ (971 : ℤ) := zpow_pos two_pos _
    generalize (2 : ℚ) ^ (971 : ℤ) = b at *
    linarith
  have hlast : e = 971 → q < 2 ^ 53 := by
    rintro rfl
    rw [← div_lt_iff₀ (zpow_pos two_pos _)] at hx
    have hhalf := (abs_le.mp h.nearest.within_half).1
    have hlt : (q : ℚ) < 2 ^ 53 := by linarith
    exact_mod_cast hlt
  unfold infinityBits
  omega

end

/-! The image of a rounding. -/

section
variable {x : ℚ} {e : ℤ} {q : ℕ} (negative : Bool)

/-- The significand and the unit in the last place of a rounding's image: those of the rounding, but for a significand that
was rounded up to `2 ^ 53`. -/
theorem RoundsAt.significand_signedImage (h : RoundsAt x e q) (hfin : (e + 1074).toNat * 2 ^ 52 + q < infinityBits) :
    let a := signedImage negative ((e + 1074).toNat * 2 ^ 52 + q)
    (significand a = q ∧ unitExponent a = e) ∨ (q = 2 ^ 53 ∧ significand a = 2 ^ 52 ∧ unitExponent a = e + 1) := by
  have hM : (e + 1074).toNat * 2 ^ 52 + q < 2 ^ 63 := by unfold infinityBits at hfin; omega
  have hq := h.q_le
  have hlow := h.le_q
  have hmin := h.exponent
  simp only [significand, unitExponent, exponentField_signedImage negative hM, fractionField_signedImage negative hM]
  split <;> omega

theorem RoundsAt.isFinite_signedImage (hfin : (e + 1074).toNat * 2 ^ 52 + q < infinityBits) :
    isFinite (signedImage negative ((e + 1074).toNat * 2 ^ 52 + q)) = true := by
  unfold infinityBits at hfin
  rw [isFinite, exponentField_signedImage negative (by omega), bne_iff_ne]
  omega

theorem RoundsAt.numberOfImage_signedImage (h : RoundsAt x e q)
    (hfin : (e + 1074).toNat * 2 ^ 52 + q < infinityBits) :
    numberOfImage (signedImage negative ((e + 1074).toNat * 2 ^ 52 + q)) = signFactor negative * (q * 2 ^ e) := by
  rw [numberOfImage_eq, signBit_signedImage negative (by unfold infinityBits at hfin; omega)]
  congr 1
  obtain ⟨hs, hu⟩ | ⟨hq, hs, hu⟩ := h.significand_signedImage negative hfin
  · rw [hs, hu]
  · rw [hs, hu, hq, zpow_add_one₀ two_ne_zero]
    push_cast
    ring

end

/-! Correct rounding. -/

/-- The image `a` is the number `x` rounded to nearest, ties to even, among all the numbers of 53 bits. -/
structure CorrectlyRounded (x : ℚ) (a : FlNumber) : Prop where
  finite : isFinite a = true
  nearest : ∀ y, Representable y → |x - numberOfImage a| ≤ |x - y|
  tie : ∀ y, Representable y → |x - numberOfImage a| = |x - y| → y = numberOfImage a ∨ significand a % 2 = 0

/-- The image of a fraction below the overflow bound, with either sign, is correctly rounded. -/
theorem correctlyRounded_signedImage (negative : Bool) (n : ℕ) {d : ℕ} (hd : 0 < d) (hx : (n : ℚ) / d < overflowBound) :
    CorrectlyRounded (signFactor negative * (n / d)) (signedImage negative (roundMagnitude n d)) := by
  obtain ⟨e, q, h, heq⟩ := roundMagnitude_spec n hd
  have hfin := h.image_lt_infinityBits hx
  rw [heq, min_eq_left hfin.le]
  generalize (n : ℚ) / d = x at *
  have hdist : ∀ y, |signFactor negative * x - y| = |x - signFactor negative * y| := abs_signFactor_mul_sub negative x
  have hnumber := h.numberOfImage_signedImage negative hfin
  have hcancel : ∀ y, signFactor negative * (signFactor negative * y) = y := fun y => by
    rw [← mul_assoc, signFactor_mul_self, one_mul]
  refine ⟨RoundsAt.isFinite_signedImage negative hfin, fun y hy => ?_, fun y hy htie => ?_⟩
  · rw [hnumber, hdist, hdist, hcancel]
    exact (h.nearest_representable (hy.signFactor_mul negative)).1
  · rw [hnumber, hdist, hdist, hcancel] at htie
    refine ((h.nearest_representable (hy.signFactor_mul negative)).2 htie).imp (fun hy => ?_) fun heven => ?_
    · rw [hnumber, ← hy, hcancel]
    · obtain ⟨hs, -⟩ | ⟨-, hs, -⟩ := h.significand_signedImage negative hfin
      · rw [hs, heven]
      · rw [hs]
        rfl

section
variable {x : ℚ} {a : FlNumber}

/-- Every finite image is a number of 53 bits. -/
theorem CorrectlyRounded.roundsTo (h : CorrectlyRounded x a) : RoundsTo x a :=
  ⟨h.finite, fun b _ =>
    ⟨h.nearest _ (representable_numberOfImage b), h.tie _ (representable_numberOfImage b)⟩⟩

/-- A number of 53 bits is its own rounding. -/
theorem CorrectlyRounded.numberOfImage_eq (h : CorrectlyRounded x a) (hx : Representable x) : numberOfImage a = x := by
  have hle := h.nearest x hx
  rw [sub_self, abs_zero] at hle
  exact (sub_eq_zero.mp (abs_nonpos_iff.mp hle)).symm

/-- Rounding does not cross a number of 53 bits, from above. -/
theorem CorrectlyRounded.le_abs_numberOfImage (h : CorrectlyRounded x a) {y : ℚ} (hy : Representable y) (hyx : y ≤ |x|) :
    y ≤ |numberOfImage a| := by
  obtain hx | hx := le_total 0 x
  · rw [abs_of_nonneg hx] at hyx
    have hle := h.nearest y hy
    rw [abs_of_nonneg (sub_nonneg.mpr hyx)] at hle
    linarith [le_abs_self (x - numberOfImage a), le_abs_self (numberOfImage a)]
  · rw [abs_of_nonpos hx] at hyx
    have hle := h.nearest (-y) hy.neg
    rw [abs_of_nonpos (by linarith : x - -y ≤ 0)] at hle
    linarith [neg_abs_le (x - numberOfImage a), neg_abs_le (numberOfImage a)]

/-- Rounding does not cross a number of 53 bits, from below. -/
theorem CorrectlyRounded.abs_numberOfImage_le (h : CorrectlyRounded x a) {y : ℚ} (hy : Representable y) (hxy : |x| ≤ y) :
    |numberOfImage a| ≤ y := by
  obtain ⟨hlow, hupp⟩ := abs_le.mp hxy
  have hle := h.nearest y hy
  have hle' := h.nearest (-y) hy.neg
  rw [abs_of_nonpos (by linarith : x - y ≤ 0)] at hle
  rw [abs_of_nonneg (by linarith : 0 ≤ x - -y)] at hle'
  rw [abs_le]
  constructor <;> linarith [le_abs_self (x - numberOfImage a), neg_abs_le (x - numberOfImage a)]

end

end Sys2Proof.Machine
end

section
/-! PROOF. Digits and display values (43_numeric_converter.md R171 to R179), and the human-readable adapter (R215). -/

namespace Sys2Proof.Machine

open Sys2Proof.Claims

/-! Digits and display values. -/

theorem displayMagnitude_le (d0 d1 d2 d3 : Nibble) : displayMagnitude d0 d1 d2 d3 ≤ 16665 := by
  unfold displayMagnitude
  omega

/-- Decimal digits are determined by their sum of weights. -/
theorem displayMagnitude_injective {a0 a1 a2 a3 b0 b1 b2 b3 : Nibble}
    (ha : a0.toNat ≤ 9 ∧ a1.toNat ≤ 9 ∧ a2.toNat ≤ 9 ∧ a3.toNat ≤ 9)
    (hb : b0.toNat ≤ 9 ∧ b1.toNat ≤ 9 ∧ b2.toNat ≤ 9 ∧ b3.toNat ≤ 9)
    (h : displayMagnitude a0 a1 a2 a3 = displayMagnitude b0 b1 b2 b3) : a0 = b0 ∧ a1 = b1 ∧ a2 = b2 ∧ a3 = b3 := by
  unfold displayMagnitude at h
  simp only [← BitVec.toNat_inj]
  omega

/-- The decimal digits of a number below 10000 as nibbles. -/
def decimalDigits (n : ℕ) : Nibble × Nibble × Nibble × Nibble :=
  (BitVec.ofNat 4 (n / 1000), BitVec.ofNat 4 (n / 100 % 10), BitVec.ofNat 4 (n / 10 % 10), BitVec.ofNat 4 (n % 10))

theorem displayMagnitude_decimalDigits {n : ℕ} (hn : n ≤ 9999) :
    let d := decimalDigits n
    (d.1.toNat ≤ 9 ∧ d.2.1.toNat ≤ 9 ∧ d.2.2.1.toNat ≤ 9 ∧ d.2.2.2.toNat ≤ 9) ∧
      displayMagnitude d.1 d.2.1 d.2.2.1 d.2.2.2 = n := by
  simp only [decimalDigits, displayMagnitude, BitVec.toNat_ofNat]
  omega

/-- Settles O42: the digits of `n` have the sum `n`, and no other decimal digits have. -/
theorem decimalDigitsAreABijection : Obligations.DecimalDigitsAreABijection := by
  refine ⟨fun d0 d1 d2 d3 => ?_, by decide, fun n => ⟨fun hn => ?_, ?_⟩⟩
  · have hle := displayMagnitude_le d0 d1 d2 d3
    exact ⟨hle, hle.trans_lt (by norm_num)⟩
  · obtain ⟨hdigits, hsum⟩ := displayMagnitude_decimalDigits hn
    refine ⟨decimalDigits n, ⟨hdigits, hsum⟩, ?_⟩
    rintro ⟨d0, d1, d2, d3⟩ ⟨hd, hd'⟩
    obtain ⟨rfl, rfl, rfl, rfl⟩ := displayMagnitude_injective hd hdigits (hd'.trans hsum.symm)
    rfl
  · rintro ⟨⟨d0, d1, d2, d3⟩, ⟨hd, rfl⟩, -⟩
    simp only [displayMagnitude] at hd ⊢
    omega

/-- Step 10 leaves a display value only if step 9 gave it (R186). -/
theorem stepTen_displayValue {o : Operation} {n : Numbers} {v : DisplayValue} (h : (stepTen o n).displayValue = some v) :
    n.displayValue = some v := by
  cases o with
  | overload => cases h
  | normal => exact h

/-- A record's display value is the display integer of the packet at some position (R177). -/
theorem displayValue_N {REG : Registry} {fmt : FloatFormat} {P : Packet} {m : Measurement} {v : DisplayValue}
    (h : decodeInput REG fmt (packetBytes P) = .ok m) (hv : m.displayValue = some v) :
    v.N = displayInteger (layoutFields P) := by
  obtain ⟨e, rd, c, -, -, -, rfl⟩ := measure_ok (decodeInput_packetBytes_ok h)
  obtain rfl := Option.some.inj (stepTen_displayValue hv)
  exact stepEight_eq_displayInteger (layoutFields P)

theorem decimalNumber_displayDecimal (v : DisplayValue) : decimalNumber (displayDecimal v) * 10 ^ v.p.val = v.N := by
  rw [decimalNumber, displayDecimal, zpow_neg, zpow_natCast, inv_mul_cancel_right₀ (by positivity)]

/-- The magnitude of the display integer is the digit sum, and SIGN alone makes it negative (R171, R175). -/
theorem displayInteger_natAbs_and_sign (p : Fields) :
    (displayInteger p).natAbs = 1000 * p.d0.toNat + 100 * p.d1.toNat + 10 * p.d2.toNat + p.d3.toNat ∧
      (displayInteger p < 0 → p.flags.SIGN = true) := by
  unfold displayInteger
  cases p.flags.SIGN <;> simp <;> omega

/-- Settles O44: the display value of a record is the packet's display integer over a power of ten. -/
theorem displayValueRoundTrips : Obligations.DisplayValueRoundTrips := by
  intro REG fmt P m v h hv
  have hN := displayValue_N h hv
  obtain ⟨hmagnitude, hsign⟩ := displayInteger_natAbs_and_sign (layoutFields P)
  refine ⟨hN, decimalNumber_displayDecimal v, ?_, fun hneg => hsign (hN ▸ hneg)⟩
  rw [hN, hmagnitude]
  simp [layoutFields]

/-- Settles O59: the form follows the operation. -/
theorem humanLineHasTwoForms : Obligations.HumanLineHasTwoForms := by
  intro m v
  constructor
  · intro hnormal hv
    simp only [humanLine, hnormal, hv, Option.map_some, Option.getD_some]
  · intro hoverload
    simp only [humanLine, hoverload, operationText]
    rfl

end Sys2Proof.Machine
end

section
/-! PROOF. The conversion `fl` and the product `*fl` of binary64 as correct roundings, and the value of a record under
bounded multipliers (43_numeric_converter.md R181 to R184). -/

namespace Sys2Proof.Machine

open Sys2Proof.Claims

/-! The conversion `fl` of binary64. -/

/-- A decimal's magnitude as the fraction that `binary64OfDecimal` rounds. -/
theorem abs_decimalNumber (x : Decimal) :
    |decimalNumber x| =
      ((x.coefficient.natAbs * 10 ^ x.exponent.toNat : ℕ) : ℚ) / ((10 ^ (-x.exponent).toNat : ℕ) : ℚ) := by
  have hpos : (0 : ℚ) < 10 ^ x.exponent := by positivity
  push_cast
  rw [mul_div_assoc, pow_toNat_div_pow_toNat_neg (by norm_num), decimalNumber, abs_mul, abs_of_pos hpos,
    Nat.cast_natAbs, Int.cast_abs]

theorem decimalNumber_neg_iff (x : Decimal) : decimalNumber x < 0 ↔ x.coefficient < 0 := by
  have hpos : (0 : ℚ) < 10 ^ x.exponent := by positivity
  rw [decimalNumber, ← neg_pos, ← neg_mul, mul_pos_iff_of_pos_right hpos, neg_pos, Int.cast_lt_zero]

theorem decimalNumber_eq (x : Decimal) :
    decimalNumber x = signFactor (decide (x.coefficient < 0)) * |decimalNumber x| := by
  have hsign := decimalNumber_neg_iff x
  by_cases hneg : x.coefficient < 0
  · rw [abs_of_neg (hsign.mpr hneg), decide_eq_true hneg, signFactor, if_pos rfl, neg_one_mul, neg_neg]
  · rw [abs_of_nonneg (not_lt.mp (hneg ∘ hsign.mp)), decide_eq_false hneg, signFactor, if_neg Bool.false_ne_true, one_mul]

/-- Settles O48: the sign and the magnitude of the number decide the image. -/
theorem conversionDependsOnTheNumberAlone : Obligations.ConversionDependsOnTheNumberAlone := by
  intro fmt x y h
  cases fmt with
  | other => exact congrArg Config.otherFl h
  | binary64 =>
    have hsign : decide (x.coefficient < 0) = decide (y.coefficient < 0) := by
      simp only [← decimalNumber_neg_iff, h]
    have hmagnitude := roundMagnitude_congr (by positivity) (by positivity)
      ((abs_decimalNumber x).symm.trans ((congrArg _ h).trans (abs_decimalNumber y)))
    rw [flOf, flOf, binary64OfDecimal, binary64OfDecimal, hsign, hmagnitude]

/-- `fl` of a decimal below the overflow bound is correctly rounded (R181, R183). -/
theorem correctlyRounded_binary64OfDecimal {x : Decimal} (hx : |decimalNumber x| < overflowBound) :
    CorrectlyRounded (decimalNumber x) (binary64OfDecimal x) := by
  rw [abs_decimalNumber] at hx
  rw [decimalNumber_eq, abs_decimalNumber]
  exact correctlyRounded_signedImage _ _ (by positivity) hx

/-- Settles O49: a correct rounding is nearest among the finite images too. -/
theorem binary64ConversionRoundsToNearest : Obligations.Binary64ConversionRoundsToNearest :=
  fun _ hx => (correctlyRounded_binary64OfDecimal hx).roundsTo

theorem roundMagnitude_le (n d : ℕ) : roundMagnitude n d ≤ infinityBits := by
  unfold roundMagnitude
  split
  · exact Nat.zero_le _
  · exact min_le_right _ _

theorem roundMagnitude_lt (n d : ℕ) : roundMagnitude n d < 2 ^ 63 :=
  (roundMagnitude_le n d).trans_lt (by decide)

theorem roundMagnitude_zero (d : ℕ) : roundMagnitude 0 d = 0 := if_pos rfl

theorem signBit_binary64OfDecimal (x : Decimal) : signBit (binary64OfDecimal x) = decide (x.coefficient < 0) :=
  signBit_signedImage _ (roundMagnitude_lt _ _)

/-- Zero has the one image of positive zero, at every exponent (R176, decision D11). -/
theorem binary64OfDecimal_zero {x : Decimal} (hx : x.coefficient = 0) : binary64OfDecimal x = 0 := by
  rw [binary64OfDecimal, hx, Int.natAbs_zero, zero_mul, roundMagnitude_zero]
  rfl

/-- Settles O47: the sign is applied to the integer zero, and zero has the one image. -/
theorem signOnZeroIsPlainZero : Obligations.SignOnZeroIsPlainZero :=
  fun F _ => ⟨by cases hs : F.SIGN <;> simp [stepEight, displayMagnitude, hs], binary64OfDecimal_zero rfl⟩

/-! The product `*fl` of binary64. -/

section
variable {a b : FlNumber}

theorem isNaN_of_isFinite (h : isFinite a = true) : isNaN a = false := by
  rw [isNaN, beq_false_of_ne (bne_iff_ne.mp h), Bool.false_and]

theorem isInfinite_of_isFinite (h : isFinite a = true) : isInfinite a = false := by
  rw [isInfinite, beq_false_of_ne (bne_iff_ne.mp h), Bool.false_and]

/-- The product of finite images rounds the product of their significands at the sum of their exponents. -/
theorem binary64Mul_of_isFinite (ha : isFinite a = true) (hb : isFinite b = true) :
    binary64Mul a b = signedImage (signBit a != signBit b)
      (roundMagnitude (significand a * significand b * 2 ^ (unitExponent a + unitExponent b).toNat)
        (2 ^ (-(unitExponent a + unitExponent b)).toNat)) := by
  simp [binary64Mul, isNaN_of_isFinite, isInfinite_of_isFinite, ha, hb]

theorem signBit_binary64Mul (ha : isFinite a = true) (hb : isFinite b = true) :
    signBit (binary64Mul a b) = (signBit a != signBit b) := by
  rw [binary64Mul_of_isFinite ha hb, signBit_signedImage _ (roundMagnitude_lt _ _)]

variable (a b) in
/-- The magnitude of an exact product as the fraction that `binary64Mul` rounds. -/
theorem abs_numberOfImage_mul :
    |numberOfImage a * numberOfImage b| =
      ((significand a * significand b * 2 ^ (unitExponent a + unitExponent b).toNat : ℕ) : ℚ) /
        ((2 ^ (-(unitExponent a + unitExponent b)).toNat : ℕ) : ℚ) := by
  push_cast
  rw [mul_div_assoc, pow_toNat_div_pow_toNat_neg two_ne_zero, zpow_add₀ two_ne_zero, abs_mul, abs_numberOfImage,
    abs_numberOfImage]
  ring

variable (a b) in
theorem numberOfImage_mul_eq :
    numberOfImage a * numberOfImage b = signFactor (signBit a != signBit b) * |numberOfImage a * numberOfImage b| := by
  rw [abs_mul, abs_numberOfImage, abs_numberOfImage, ← signFactor_mul, numberOfImage_eq, numberOfImage_eq]
  ring

/-- The product of finite images below the overflow bound is the exact product, correctly rounded (R181, R183). -/
theorem correctlyRounded_binary64Mul (ha : isFinite a = true) (hb : isFinite b = true)
    (hbound : |numberOfImage a * numberOfImage b| < overflowBound) :
    CorrectlyRounded (numberOfImage a * numberOfImage b) (binary64Mul a b) := by
  rw [abs_numberOfImage_mul] at hbound
  rw [numberOfImage_mul_eq, abs_numberOfImage_mul, binary64Mul_of_isFinite ha hb]
  exact correctlyRounded_signedImage _ _ (by positivity) hbound

end

/-- Settles O50: a correct rounding is nearest among the finite images too. -/
theorem binary64ProductRoundsToNearest : Obligations.Binary64ProductRoundsToNearest :=
  fun _ _ ha hb hbound => (correctlyRounded_binary64Mul ha hb hbound).roundsTo

/-! Multiplier 1. -/

section
variable (a : FlNumber)

/-- The magnitude of an image rounds to itself. -/
theorem roundsAt_significand : RoundsAt (significand a * 2 ^ unitExponent a) (unitExponent a) (significand a) where
  exponent := le_unitExponent a
  upper := by
    gcongr
    exact_mod_cast significand_lt a
  lower := by
    by_cases h : exponentField a = 0
    · left
      rw [unitExponent, h]
      rfl
    · right
      gcongr
      rw [significand, if_neg h]
      exact_mod_cast Nat.le_add_right _ _
  nearest := by
    rw [mul_div_assoc, div_self (by positivity), mul_one]
    exact .natCast _

theorem image_significand :
    (unitExponent a + 1074).toNat * 2 ^ 52 + significand a = exponentField a * 2 ^ 52 + fractionField a := by
  unfold unitExponent significand
  split <;> omega

theorem image_lt_infinityBits {a : FlNumber} (ha : isFinite a = true) :
    exponentField a * 2 ^ 52 + fractionField a < infinityBits := by
  have hE := exponentField_lt a
  have hne : exponentField a ≠ 0x7FF := bne_iff_ne.mp ha
  have hf := fractionField_lt a
  unfold infinityBits
  omega

/-- A fraction with the magnitude of a finite image rounds to that image. -/
theorem signedImage_roundMagnitude {a : FlNumber} (ha : isFinite a = true) {n d : ℕ} (hd : 0 < d)
    (h : (n : ℚ) / d = significand a * 2 ^ unitExponent a) : signedImage (signBit a) (roundMagnitude n d) = a := by
  have hround : RoundsAt (n / d) (unitExponent a) (significand a) := h ▸ roundsAt_significand a
  rw [hround.roundMagnitude_eq hd, image_significand, min_eq_left (image_lt_infinityBits ha).le, signedImage_fields]

end

theorem binary64OfDecimal_one : binary64OfDecimal ⟨1, 0⟩ = 0x3FF0000000000000#64 := by decide

theorem numberOfImage_one : numberOfImage 0x3FF0000000000000#64 = 1 := by
  have hsign : signBit 0x3FF0000000000000#64 = false := by decide
  have hsignificand : significand 0x3FF0000000000000#64 = 2 ^ 52 := by decide
  have hunit : unitExponent 0x3FF0000000000000#64 = -52 := by decide
  rw [numberOfImage_eq, hsign, hsignificand, hunit]
  norm_num [signFactor]

/-- The product with 1 is exact. -/
theorem binary64Mul_one {a : FlNumber} (ha : isFinite a = true) : binary64Mul a 0x3FF0000000000000#64 = a := by
  have hsign : signBit 0x3FF0000000000000#64 = false := by decide
  rw [binary64Mul_of_isFinite ha (by decide), hsign, Bool.bne_false]
  refine signedImage_roundMagnitude ha (by positivity) ?_
  rw [← abs_numberOfImage_mul, numberOfImage_one, mul_one, abs_numberOfImage]

/-! Bounds of display values and multipliers. -/

theorem two_zpow_lt_overflowBound {u : ℤ} (hu : u ≤ 1023) : 2 ^ u < overflowBound := by
  rw [overflowBound_eq]
  calc (2 : ℚ) ^ u ≤ 2 ^ ((52 : ℕ) + 971 : ℤ) := zpow_le_zpow_right₀ one_le_two (by omega)
    _ = 2 ^ 52 * 2 ^ (971 : ℤ) := by rw [zpow_add₀ two_ne_zero, zpow_natCast]
    _ < (2 ^ 53 - 1 / 2) * 2 ^ (971 : ℤ) := by gcongr; norm_num

section
variable {N : ℤ} (p : Fin 4)

theorem abs_displayDecimal (N : ℤ) : |decimalNumber (displayDecimal ⟨N, p⟩)| = |(N : ℚ)| / 10 ^ p.val := by
  have hpos : (0 : ℚ) < 10 ^ p.val := by positivity
  rw [displayDecimal, decimalNumber, abs_mul, zpow_neg, zpow_natCast, abs_inv, abs_of_pos hpos, div_eq_mul_inv]

theorem abs_displayDecimal_le (hlo : -16665 ≤ N) (hhi : N ≤ 16665) :
    |decimalNumber (displayDecimal ⟨N, p⟩)| ≤ 2 ^ (15 : ℤ) := by
  have hN : |(N : ℚ)| ≤ 16665 := by exact_mod_cast abs_le.mpr ⟨hlo, hhi⟩
  rw [abs_displayDecimal]
  calc |(N : ℚ)| / 10 ^ p.val ≤ |(N : ℚ)| := div_le_self (abs_nonneg _) (one_le_pow₀ (by norm_num))
    _ ≤ 2 ^ (15 : ℤ) := hN.trans (by norm_num)

theorem le_abs_displayDecimal (hN : N ≠ 0) : 2 ^ (-10 : ℤ) ≤ |decimalNumber (displayDecimal ⟨N, p⟩)| := by
  have hN' : 1 ≤ |(N : ℚ)| := by exact_mod_cast Int.one_le_abs hN
  have hp : (10 : ℚ) ^ p.val ≤ 10 ^ 3 := pow_le_pow_right₀ (by norm_num) (by omega)
  rw [abs_displayDecimal]
  calc (2 : ℚ) ^ (-10 : ℤ) ≤ 1 / 10 ^ 3 := by norm_num
    _ ≤ |(N : ℚ)| / 10 ^ p.val := by gcongr

/-- `N / 10^p` is converted with one correct rounding (R181). -/
theorem correctlyRounded_displayDecimal (hlo : -16665 ≤ N) (hhi : N ≤ 16665) :
    CorrectlyRounded (decimalNumber (displayDecimal ⟨N, p⟩)) (binary64OfDecimal (displayDecimal ⟨N, p⟩)) :=
  correctlyRounded_binary64OfDecimal
    ((abs_displayDecimal_le p hlo hhi).trans_lt (two_zpow_lt_overflowBound (by norm_num)))

/-- The product with the multiplier 1 leaves the converted display value (R184 a). -/
theorem scaledValue_one (hlo : -16665 ≤ N) (hhi : N ≤ 16665) :
    scaledValue .binary64 ⟨N, p⟩ ⟨1, 0⟩ = binary64OfDecimal (displayDecimal ⟨N, p⟩) := by
  have hfinite := (correctlyRounded_displayDecimal p hlo hhi).finite
  rw [scaledValue, flMul, flOf, flOf, binary64OfDecimal_one, binary64Mul_one hfinite]

end

/-- Settles O51: the product with 1 is exact, and an integer of 15 bits is a number of the format. -/
theorem multiplierOneIsASingleRounding : Obligations.MultiplierOneIsASingleRounding := by
  refine ⟨fun N p hlo hhi => scaledValue_one p hlo hhi, fun N hlo hhi => ?_⟩
  have hnumber : decimalNumber (displayDecimal ⟨N, 0⟩) = N := by simp [decimalNumber, displayDecimal]
  have hround := correctlyRounded_displayDecimal 0 hlo hhi
  rw [hnumber] at hround
  rw [scaledValue_one 0 hlo hhi]
  exact hround.numberOfImage_eq (.intCast ((abs_le.mpr ⟨hlo, hhi⟩).trans_lt (by norm_num)))

/-! Bounded multipliers. -/

theorem ten_zpow_le : (10 : ℚ) ^ (290 : ℤ) ≤ 2 ^ (970 : ℤ) :=
  calc (10 : ℚ) ^ (290 : ℤ) ≤ 10 ^ (3 * 97 : ℤ) := zpow_le_zpow_right₀ (by norm_num) (by norm_num)
    _ = (10 ^ 3) ^ 97 := by rw [zpow_mul]; rfl
    _ ≤ (2 ^ 10) ^ 97 := by gcongr; norm_num
    _ = 2 ^ (970 : ℤ) := by rw [← pow_mul]; rfl

theorem two_zpow_le_ten_zpow : (2 : ℚ) ^ (-970 : ℤ) ≤ 10 ^ (-290 : ℤ) := by
  rw [zpow_neg, zpow_neg]
  exact inv_anti₀ (by positivity) ten_zpow_le

/-- An image with exponent field 0 is below the least normal number. -/
theorem exponentField_ne_zero {a : FlNumber} (h : 2 ^ (-1022 : ℤ) ≤ |numberOfImage a|) : exponentField a ≠ 0 := by
  intro hzero
  have hf : (fractionField a : ℚ) < 2 ^ 52 := by exact_mod_cast fractionField_lt a
  have hunit : unitExponent a = -1074 := by rw [unitExponent, hzero]; rfl
  have hlt : (significand a : ℚ) * 2 ^ unitExponent a < 2 ^ (-1022 : ℤ) := by
    rw [significand, if_pos hzero, hunit]
    calc (fractionField a : ℚ) * 2 ^ (-1074 : ℤ) < 2 ^ 52 * 2 ^ (-1074 : ℤ) := by gcongr
      _ = 2 ^ (-1022 : ℤ) := by rw [← zpow_natCast, ← zpow_add₀ two_ne_zero]; rfl
  rw [abs_numberOfImage] at h
  exact absurd h hlt.not_ge

theorem isZero_of_exponentField_ne_zero {a : FlNumber} (h : exponentField a ≠ 0) : isZero a = false := by
  rw [isZero, beq_false_of_ne h, Bool.false_and]

/-- A product of finite images is finite and normal when the exact product lies between two powers of two of the normal
range. -/
theorem binary64Mul_normal {a b : FlNumber} (ha : isFinite a = true) (hb : isFinite b = true) {u v : ℤ} (hu : -1022 ≤ u)
    (hv : v ≤ 1023) (hlow : 2 ^ u ≤ |numberOfImage a * numberOfImage b|)
    (hupp : |numberOfImage a * numberOfImage b| ≤ 2 ^ v) :
    isFinite (binary64Mul a b) = true ∧ exponentField (binary64Mul a b) ≠ 0 := by
  have hround := correctlyRounded_binary64Mul ha hb (hupp.trans_lt (two_zpow_lt_overflowBound hv))
  have hmin : (2 : ℚ) ^ (-1022 : ℤ) ≤ 2 ^ u := zpow_le_zpow_right₀ one_le_two hu
  exact ⟨hround.finite, exponentField_ne_zero (hround.le_abs_numberOfImage (.two_zpow (by norm_num)) (hmin.trans hlow))⟩

/-- A product of finite images with a zero among them is a zero. -/
theorem binary64Mul_zero {a b : FlNumber} (ha : isFinite a = true) (hb : isFinite b = true)
    (h : a = 0 ∨ b = 0) : isFinite (binary64Mul a b) = true ∧ isZero (binary64Mul a b) = true := by
  have hzero : significand a * significand b = 0 := by
    obtain rfl | rfl := h
    · exact zero_mul _
    · exact mul_zero _
  rw [binary64Mul_of_isFinite ha hb, hzero, zero_mul, roundMagnitude_zero]
  generalize (signBit a != signBit b) = negative
  cases negative <;> decide

/-- The sign of a product of integers. -/
theorem decide_neg_bne_decide_neg {N c : ℤ} (hN : N ≠ 0) (hc : c ≠ 0) :
    (decide (N < 0) != decide (c < 0)) = decide (N * c < 0) := by
  obtain hN | hN := lt_or_gt_of_ne hN <;> obtain hc | hc := lt_or_gt_of_ne hc
  · simp [hN, hc, (mul_pos_of_neg_of_neg hN hc).not_gt]
  · simp [hN, hc.not_gt, mul_neg_of_neg_of_pos hN hc]
  · simp [hN.not_gt, hc, mul_neg_of_pos_of_neg hN hc]
  · simp [hN.not_gt, hc.not_gt, (mul_pos hN hc).not_gt]

/-- The multipliers for which R184 (c) speaks: zero, or between `10^-290` and `10^290` in magnitude. -/
def BoundedMultiplier (m : Decimal) : Prop :=
  m.coefficient = 0 ∨ ((10 : ℚ) ^ (-290 : ℤ) ≤ |decimalNumber m| ∧ |decimalNumber m| ≤ (10 : ℚ) ^ (290 : ℤ))

section
variable {m : Decimal} (hm : BoundedMultiplier m)
include hm

theorem BoundedMultiplier.abs_decimalNumber_le : |decimalNumber m| ≤ 2 ^ (970 : ℤ) := by
  obtain hzero | ⟨-, hupp⟩ := hm
  · rw [decimalNumber, hzero, Int.cast_zero, zero_mul, abs_zero]
    positivity
  · exact hupp.trans ten_zpow_le

theorem BoundedMultiplier.le_abs_decimalNumber (hne : m.coefficient ≠ 0) : 2 ^ (-970 : ℤ) ≤ |decimalNumber m| :=
  two_zpow_le_ten_zpow.trans (hm.resolve_left hne).1

theorem BoundedMultiplier.correctlyRounded : CorrectlyRounded (decimalNumber m) (binary64OfDecimal m) :=
  correctlyRounded_binary64OfDecimal (hm.abs_decimalNumber_le.trans_lt (two_zpow_lt_overflowBound (by norm_num)))

end

section
variable {N : ℤ} (p : Fin 4) {m : Decimal} (hlo : -16665 ≤ N) (hhi : N ≤ 16665) (hm : BoundedMultiplier m)
include hlo hhi hm

theorem scaledValue_zero (h : N = 0 ∨ m.coefficient = 0) :
    isFinite (scaledValue .binary64 ⟨N, p⟩ m) = true ∧ isZero (scaledValue .binary64 ⟨N, p⟩ m) = true :=
  binary64Mul_zero (correctlyRounded_displayDecimal p hlo hhi).finite hm.correctlyRounded.finite
    (h.imp binary64OfDecimal_zero binary64OfDecimal_zero)

/-- Both factors lie between powers of two whose products are far inside the normal range. -/
theorem scaledValue_normal (hN : N ≠ 0) (hne : m.coefficient ≠ 0) :
    isFinite (scaledValue .binary64 ⟨N, p⟩ m) = true ∧ exponentField (scaledValue .binary64 ⟨N, p⟩ m) ≠ 0 := by
  have hv := correctlyRounded_displayDecimal p hlo hhi
  have hm' := hm.correctlyRounded
  refine binary64Mul_normal (u := -10 + -970) (v := 15 + 970) hv.finite hm'.finite (by norm_num) (by norm_num) ?_ ?_
  · rw [zpow_add₀ two_ne_zero, abs_mul]
    gcongr
    · exact hv.le_abs_numberOfImage (.two_zpow (by norm_num)) (le_abs_displayDecimal p hN)
    · exact hm'.le_abs_numberOfImage (.two_zpow (by norm_num)) (hm.le_abs_decimalNumber hne)
  · rw [zpow_add₀ two_ne_zero, abs_mul]
    gcongr
    · exact hv.abs_numberOfImage_le (.two_zpow (by norm_num)) (abs_displayDecimal_le p hlo hhi)
    · exact hm'.abs_numberOfImage_le (.two_zpow (by norm_num)) hm.abs_decimalNumber_le

/-- The sign of the value is that of `N * m`. -/
theorem signBit_scaledValue (hN : N ≠ 0) (hne : m.coefficient ≠ 0) :
    signBit (scaledValue .binary64 ⟨N, p⟩ m) = decide (N * m.coefficient < 0) := by
  refine (signBit_binary64Mul (correctlyRounded_displayDecimal p hlo hhi).finite hm.correctlyRounded.finite).trans ?_
  rw [signBit_binary64OfDecimal, signBit_binary64OfDecimal]
  exact decide_neg_bne_decide_neg hN hne

end

/-- Settles O52: a zero factor gives a zero, and two factors that are not zero give a normal number. -/
theorem boundedMultipliersGiveOrdinaryValues : Obligations.BoundedMultipliersGiveOrdinaryValues := by
  intro N p m hlo hhi hm
  by_cases hzero : N = 0 ∨ m.coefficient = 0
  · obtain ⟨hfinite, hisZero⟩ := scaledValue_zero p hlo hhi hm hzero
    exact ⟨hfinite, iff_of_true hisZero hzero, fun hne => nomatch hisZero.symm.trans hne⟩
  · obtain ⟨hN, hne⟩ := not_or.mp hzero
    obtain ⟨hfinite, hexponent⟩ := scaledValue_normal p hlo hhi hm hN hne
    have hisZero := isZero_of_exponentField_ne_zero hexponent
    exact ⟨hfinite, iff_of_false (by simp [hisZero]) hzero,
      fun _ => ⟨hexponent, signBit_scaledValue p hlo hhi hm hN hne⟩⟩

end Sys2Proof.Machine
end

section
/-! PROOF. The DECODE as the step runs it (44_packet_decode.md): an input that decodes runs its instruction, the outcome is
that of the decision tree and of nothing earlier, each error is raised exactly at its cause, and the delimited-field
adapter. -/

namespace Sys2Proof.Machine

open Sys2Proof.Claims

/-! The step of the machine. -/

/-- A step on an input that decodes runs the decoded instruction on the loaded state (R202). -/
theorem step_eq_exec_of_decode {s : State} {b : List Byte} {rest : List (List Byte)} {i : Instr} (hi : s.stage = .idle)
    (hs : s.stream = b :: rest) (hdec : decode b = .ok i) : step s = exec i (s.accept b rest) := by
  rw [step, if_pos hi, State.fetch_cons hs]
  simp only [State.decodeLoaded_load, hdec]

/-- Settles O11: nine bytes decode as their packet does, and their load fills the packet registers with it. -/
theorem stepRunsTheDecodedInstruction : Obligations.StepRunsTheDecodedInstruction := by
  intro s P rest i hi hdec
  have hbytes : decode (packetBytes P) = .ok i := by rw [decode, packetOf_packetBytes]; exact hdec
  exact step_eq_exec_of_decode (s := { s with stream := packetBytes P :: rest }) hi rfl hbytes

/-- Settles O14: with an empty stream there is nothing to fetch. -/
theorem stepWithoutInputHoldsTheOutputs : Obligations.StepWithoutInputHoldsTheOutputs :=
  fun _ => step_of_stream_nil

/-- Settles O15: a step ends as DECODE of its input ends, and DECODE answers what the decision tree answers. -/
theorem stepOutcomeFollowsTheDecisionTree : Obligations.StepOutcomeFollowsTheDecisionTree :=
  fun s b rest hi =>
    ⟨_, step_of_stream_cons (s := { s with stream := b :: rest }) hi rfl, State.lastOutcome_finish _ _,
      decodeInput_eq_outcomeTree s.REG s.numerics b⟩

/-- The end of a DECODE overwrites all three outputs: they depend on how it ended alone (R205, R239). -/
theorem State.finish_outputs_congr (s s' : State) (r : Except ErrorKind Measurement) :
    (s.finish r).M = (s'.finish r).M ∧ (s.finish r).VALID = (s'.finish r).VALID ∧
      (s.finish r).ERR = (s'.finish r).ERR := by
  cases r with
  | ok m => exact ⟨rfl, rfl, rfl⟩
  | error k => exact ⟨rfl, rfl, rfl⟩

/-- Settles O17: both steps end as the same DECODE ends, and its end overwrites the outputs. -/
theorem outcomeIgnoresEverythingEarlier : Obligations.OutcomeIgnoresEverythingEarlier := by
  intro s s' t t' b rest rest' hREG hnumerics hs hs' ht ht'
  rw [step_next_of_stream_cons hs ht, step_next_of_stream_cons hs' ht', hREG, hnumerics]
  exact State.finish_outputs_congr _ _ _

/-! The errors of the single steps, each with its cause. -/

theorem stepOne_eq_invalidStatusBits_iff (P : Packet) :
    stepOne P = .error .InvalidStatusBits ↔ P.option1Byte.getLsbD 0 = true ∨ P.option2Byte.getLsbD 0 = true := by
  rw [stepOne_eq_layoutFlags, ← Bool.or_eq_true, ← fixedZeroBitSet]
  cases fixedZeroBitSet P <;> simp

section
variable {e : FunctionEntry} {r : Nibble}

/-- R131: the index is looked up in a present table only. -/
theorem stepThree_eq_unknownRange_iff :
    stepThree e r = .error .UnknownRange ↔ ∃ table, e.rangeTable = some table ∧ table.length ≤ r.toNat := by
  cases ht : e.rangeTable with
  | none => simp [stepThree_absent r ht]
  | some table => simp [stepThree_present r ht, rlookup_eq_unknownRange_iff]

/-- R132: a present table never gives this error, whatever the index. -/
theorem stepThree_eq_unsupportedMode_iff : stepThree e r = .error .UnsupportedMode ↔ e.rangeTable = none := by
  refine ⟨fun h => ?_, stepThree_absent r⟩
  cases ht : e.rangeTable with
  | none => rfl
  | some table =>
    rw [stepThree_present r ht] at h
    cases hd : table[r.toNat]? with
    | none => exact nomatch h.symm.trans (rlookup_eq_unknownRange_iff.mpr hd)
    | some rd => exact nomatch h.symm.trans (rlookup_inside hd)

end

theorem stepFive_eq_conflictingCurrentType_iff (F : Flags) :
    stepFive F = .error .ConflictingCurrentType ↔ F.AC = true ∧ F.DC = true := by
  rw [← Bool.and_eq_true]
  cases hb : F.AC && F.DC with
  | true => simp [stepFive_both hb]
  | false => simp [stepFive_not_both hb]

/-! The abort of a parser step. -/

theorem errorCode_injective : Function.Injective errorCode := fun k k' h =>
  Option.some.inj <| (errorOfCode_errorCode k).symm.trans <| (congrArg errorOfCode h).trans (errorOfCode_errorCode k')

theorem State.abort_inj {s : State} {k k' : ErrorKind} : s.abort k = s.abort k' ↔ k = k' :=
  ⟨fun h => errorCode_injective (congrArg State.ERR h), congrArg s.abort⟩

/-- A parser step that enters a later stage is no abort: the abort ends the DECODE (R239). -/
theorem State.enter_ne_abort {s : State} {g : Stage} (hg : g ≠ .idle) (k : ErrorKind) : s.enter g ≠ s.abort k :=
  fun h => hg (congrArg State.stage h)

/-- A parser step aborts with an error exactly when its function answers that error (R203). -/
theorem State.proceed_eq_abort_iff {α : Type} {s : State} {r : Except ErrorKind α} {next : α → Stage} {k : ErrorKind}
    (hnext : ∀ a, next a ≠ .idle) : s.proceed r next = s.abort k ↔ r = .error k := by
  cases r with
  | ok a => exact iff_of_false (State.enter_ne_abort (hnext a) k) (by simp)
  | error k' => exact State.abort_inj.trans (by simp)

/-- The stage equations of `tick`, at a state that stands at the stage. -/
theorem tick_eq_of_stage {s t : State} {g : Stage} (hstage : s.stage = g) (h : tick (s.enter g) = t) : tick s = t := by
  subst hstage
  exact h

/-- Settles O36: each step aborts exactly when its function answers the error, which it does exactly at the cause. -/
theorem errorsAreRaisedExactlyAtTheirCauses : Obligations.ErrorsAreRaisedExactlyAtTheirCauses := by
  intro s
  refine ⟨fun hstage => ?framing, fun hstage => ?status, fun F hstage => ?function, fun F e hstage => ?range,
    fun F e hstage => ?mode, fun F e w hstage => ?current⟩
  case framing =>
    rw [tick_eq_of_stage hstage (tick_framing s)]
    split
    case isTrue h => exact iff_of_false (State.enter_ne_abort (by simp) _) (not_not_intro h)
    case isFalse h => exact iff_of_true rfl h
  case status =>
    rw [tick_eq_of_stage hstage (tick_status s), State.proceed_eq_abort_iff (by simp), stepOne_eq_invalidStatusBits_iff]
  case function =>
    rw [tick_eq_of_stage hstage (tick_function s F), State.proceed_eq_abort_iff (by simp), ← lo4_eq_setWidth]
    exact flookup_eq_unknownFunction_iff
  case range =>
    rw [tick_eq_of_stage hstage (tick_range s F e), State.proceed_eq_abort_iff (by simp), ← lo4_eq_setWidth]
    exact stepThree_eq_unknownRange_iff
  case mode =>
    rw [tick_eq_of_stage hstage (tick_range s F e), State.proceed_eq_abort_iff (by simp),
      stepThree_eq_unsupportedMode_iff]
  case current =>
    rw [tick_eq_of_stage hstage (tick_current s F e w), State.proceed_eq_abort_iff (by simp),
      stepFive_eq_conflictingCurrentType_iff]

/-! The delimited-field adapter. -/

/-- The value field is empty without a normal operation or without a number (R214). -/
theorem head?_delimitedFields_of_no_value {m : Measurement} (h : m.operation ≠ .normal ∨ m.value = none) :
    (delimitedFields m).head? = some "" := by
  unfold delimitedFields
  split
  case h_1 v hop hv => simp [hop, hv] at h
  case h_2 => rfl

/-- Settles O58: the fields are the definition's; only `current` is spelled in another order of its cases. -/
theorem delimitedFieldsKeepTheirOrder : Obligations.DelimitedFieldsKeepTheirOrder := by
  refine fun m => ⟨?_, head?_delimitedFields_of_no_value⟩
  have hcurrent : currentText m.current = match m.current with | none => "" | some .AC => "AC" | some .DC => "DC" := by
    rcases m.current with - | - | - <;> rfl
  rw [delimitedFields, hcurrent]
  rfl

end Sys2Proof.Machine
end

section
/-! PROOF. The abort of a DECODE: what it writes at whatever stage, and the codes of the error table. -/

namespace Sys2Proof.Machine

open Sys2Proof.Claims

/-- The abort overwrites the stage, so it is the same at every stage (R239). -/
theorem State.abort_from_idle (s : State) (k : ErrorKind) : s.abort k = { s with stage := .idle }.abort k := rfl

/-- The writes of an abort, from any stage: those of the idle state's abort. -/
theorem State.abort_eq_aborted_idle (s : State) (k : ErrorKind) :
    s.abort k = aborted { s with stage := .idle } (errorCode k) :=
  (s.abort_from_idle k).trans (State.abort_eq_aborted rfl k)

/-- A code names an error kind exactly when it is neither 0, no error, nor 7, the unused code (R230). -/
theorem errorOfCode_eq_none_iff (c : BitVec 3) : errorOfCode c = none ↔ c = 0 ∨ c = 7 := by
  revert c
  decide

/-- Settles O55: the writes from the idle stage carry over to every stage, and the codes are read off the table. -/
theorem abortRecordsTheErrorCode : Obligations.AbortRecordsTheErrorCode :=
  ⟨State.abort_eq_aborted_idle, errorOfCode_errorCode, (errorOfCode_eq_none_iff 0).mpr (.inl rfl),
    (errorOfCode_eq_none_iff 7).mpr (.inr rfl), rfl, rfl, rfl, rfl, rfl, rfl⟩

end Sys2Proof.Machine
end

section
/-! PROOF. One DECODE at a time (70_reset_and_hazards.md R265, R266): the moves a busy instance refuses are exactly those an
idle one answers. -/

namespace Sys2Proof.Machine

open Sys2Proof.Claims

/-! A busy instance. -/

/-- A row's meaning is refused at every stage but the idle one (R265). -/
theorem State.decodeRow_busy {s : State} (hbusy : s.stage ≠ .idle) (c : Nibble) (p : Fields) :
    s.decodeRow c p = .refused .decodeInProgress := if_neg hbusy

theorem exec_busy {s : State} (hbusy : s.stage ≠ .idle) (i : Instr) : exec i s = .refused .decodeInProgress := by
  rw [exec_eq_decodeRow, State.decodeRow_busy hbusy]

theorem step_busy {s : State} (hbusy : s.stage ≠ .idle) : step s = .refused .decodeInProgress := if_neg hbusy

theorem request_busy {s : State} (hbusy : s.stage ≠ .idle) : request s = .refused .decodeInProgress := if_neg hbusy

theorem present_busy {s : State} (hbusy : s.stage ≠ .idle) (input : List Byte) :
    present s input = .refused .inputHeldDuringDecode := if_neg hbusy

/-! An idle instance. -/

/-- An idle instance steps, with a further input or without one (R209, R252). -/
theorem exists_step_next_of_idle {s : State} (hi : s.stage = .idle) : ∃ t, step s = .next t := by
  cases hs : s.stream with
  | nil => exact ⟨_, step_of_stream_nil hi hs⟩
  | cons b rest => exact ⟨_, step_of_stream_cons hi hs⟩

theorem request_idle {s : State} (hi : s.stage = .idle) : request s = .next (s.enter .framing) := if_pos hi

theorem present_idle {s : State} (hi : s.stage = .idle) (input : List Byte) :
    present s input = .next (s.load input) := if_pos hi

/-- Settles O33: each of the four moves by its rule at a busy and at an idle stage. -/
theorem busyInstanceRefusesRequests : Obligations.BusyInstanceRefusesRequests := fun _ i input =>
  ⟨fun hbusy => ⟨exec_busy hbusy i, step_busy hbusy, request_busy hbusy, present_busy hbusy input⟩,
    fun hi => ⟨⟨_, exec_idle hi i⟩, exists_step_next_of_idle hi, ⟨_, request_idle hi⟩, ⟨_, present_idle hi input⟩⟩⟩

end Sys2Proof.Machine
end
